-- ==== Sys2Proof/Word.lean ====
section
/-! DEFINITION. The word types of the block: R7 (`W`, `DELTA_W`, `BOUND_W` are 32) and R39 (a command word has 72 bits). -/

namespace Sys2Proof

/-- A 32-bit unsigned word: `STATE`, `INC`, `RESULT`, every operand and every output (R7, R9). -/
abbrev Word := BitVec 32

/-- The 72-bit command word `{b, a, op}` of the command port (R38, R39). -/
abbrev CmdWord := BitVec 72

/-- The 8-bit opcode field (R39). -/
abbrev Opcode := BitVec 8

end Sys2Proof
end

