-- ==== Sys2Proof/Syntax.lean ====
section
/-! DEFINITION. The seven commands (R41), one constructor per row of spec/opcode_table.json, and the
assembler's lines (R44, R45). -/

namespace Sys2Proof

/-- The commands of R41. A command carries the operands it uses, as 32-bit unsigned values exactly as
they stand in the word; an operand it ignores is not part of it (R40). -/
inductive Instr where
  /-- R48. -/
  | nop
  /-- R49: `a` = seed_value, `b` = stream_id. -/
  | seed (seedValue streamId : Word)
  /-- R50: `a` = state, `b` = inc. -/
  | load (stateValue incValue : Word)
  /-- R53. -/
  | step
  /-- R61. -/
  | next
  /-- R56: `a` = delta. -/
  | jump (delta : Word)
  /-- R65: `a` = bound. -/
  | bounded (bound : Word)
  deriving DecidableEq, Repr

/-- One line of assembler text (R44) with its operands as written, the pseudo-instructions of R45
among them. Operands are plain integers: their range is what `AsmLine.wellFormed` checks. -/
inductive AsmLine where
  | nop
  | seed (a b : Nat)
  | load (a b : Nat)
  | step
  | next
  | jump (a : Nat)
  | bounded (a : Nat)
  /-- `jumpb k`: one jump backward by `k` steps. -/
  | jumpb (k : Nat)
  /-- `pick n`: an index below the clamped length `n`. -/
  | pick (n : Nat)
  deriving DecidableEq, Repr

end Sys2Proof
end

