-- ==== Sys2Proof/WellFormed.lean ====
section
/-! DEFINITION. Which instructions and which assembler lines are well formed (R40, R44, R45). -/

namespace Sys2Proof

/-- R40: `a` and `b` are used as 32-bit unsigned values exactly as they stand, so no value of an operand
is excluded and every command is well formed; the zero bound of BOUNDED is a command too, one that
faults when it runs (R79). One arm per constructor, so that a new command must be considered here. -/
def Instr.wellFormed : Instr → Bool
  | .nop => true
  | .seed _ _ => true
  | .load _ _ => true
  | .step => true
  | .next => true
  | .jump _ => true
  | .bounded _ => true

/-- R44: an operand is an integer from 0 to 4294967295. -/
def operandInRange (n : Nat) : Bool :=
  decide (n ≤ 4294967295)

/-- R44, R45: every operand is in range, but for the length of `pick`, which is any integer ≥ 0. -/
def AsmLine.wellFormed : AsmLine → Bool
  | .nop => true
  | .seed a b => operandInRange a && operandInRange b
  | .load a b => operandInRange a && operandInRange b
  | .step => true
  | .next => true
  | .jump a => operandInRange a
  | .bounded a => operandInRange a
  | .jumpb k => operandInRange k
  | .pick _ => true

end Sys2Proof
end

