-- ==== Sys2Proof/Decode.lean ====
section
/-! DEFINITION. The one command format (R39), the opcode map (R41), the decoder, total on 72-bit words
(R42), and the encoder (R40, R44). -/

namespace Sys2Proof

/-- `op = cmd_word[7:0]` (R39). -/
def opField (w : CmdWord) : Opcode :=
  w.extractLsb' 0 8

/-- `a = cmd_word[39:8]` (R39). -/
def aField (w : CmdWord) : Word :=
  w.extractLsb' 8 32

/-- `b = cmd_word[71:40]` (R39). -/
def bField (w : CmdWord) : Word :=
  w.extractLsb' 40 32

/-- `cmd_word = {b, a, op}` (R39): the leftmost is the most significant (R9). -/
def packCommand (op : Opcode) (a b : Word) : CmdWord :=
  b ++ (a ++ op)

/-- R42: every word decodes to one of the seven commands or to the illegal verdict, which names the
reserved opcode. -/
inductive Verdict where
  | command (i : Instr)
  | illegal (op : Opcode)
  deriving DecidableEq, Repr

/-- R41, R42. A decoder looks at `cmd_word[7:0]` only; 0x07 to 0xFF are illegal. -/
def decode (w : CmdWord) : Verdict :=
  match (opField w).toNat with
  | 0x00 => .command .nop
  | 0x01 => .command (.seed (aField w) (bField w))
  | 0x02 => .command (.load (aField w) (bField w))
  | 0x03 => .command .step
  | 0x04 => .command .next
  | 0x05 => .command (.jump (aField w))
  | 0x06 => .command (.bounded (aField w))
  | _ => .illegal (opField w)

/-- R41: the opcode of each command. -/
def opcodeOf : Instr → Opcode
  | .nop => 0x00#8
  | .seed _ _ => 0x01#8
  | .load _ _ => 0x02#8
  | .step => 0x03#8
  | .next => 0x04#8
  | .jump _ => 0x05#8
  | .bounded _ => 0x06#8

/-- The operand `a` as the assembler writes it: 0 where the command does not use it (R40). -/
def operandA : Instr → Word
  | .nop => 0#32
  | .seed a _ => a
  | .load a _ => a
  | .step => 0#32
  | .next => 0#32
  | .jump a => a
  | .bounded a => a

/-- The operand `b` as the assembler writes it: 0 where the command does not use it (R40). -/
def operandB : Instr → Word
  | .nop => 0#32
  | .seed _ b => b
  | .load _ b => b
  | .step => 0#32
  | .next => 0#32
  | .jump _ => 0#32
  | .bounded _ => 0#32

/-- The command word of a command (R39, R41, R44). -/
def encode (i : Instr) : CmdWord :=
  packCommand (opcodeOf i) (operandA i) (operandB i)

/-- The instruction of a verdict, if it has one. -/
def Verdict.instr? : Verdict → Option Instr
  | .command i => some i
  | .illegal _ => none

/-- A command word from the `nbits` low bits of `w`, every higher bit 0: bit 0 of the table is
`cmd_word[0]` (R9, R39). -/
def tableWord (nbits w : Nat) : CmdWord :=
  BitVec.ofNat 72 (w % 2 ^ nbits)

/-- The instruction the decoder reads from a table word, none where it refuses. -/
def decodeTableWord (nbits w : Nat) : Option Instr :=
  (decode (tableWord nbits w)).instr?

end Sys2Proof
end

