-- ==== Sys2Proof/Config.lean ====
section
/-! DEFINITION. What the spec leaves to a parameter (R7, R8; 93 I1, I7) and the free values (R22; 93 I2). -/

namespace Sys2Proof

/-- The numeric literals of R7. The spec treats them as a parameter with the source's values as the
defaults (93 I1); the defaults are `Sys2Proof.Machine.sourceParams`. -/
structure Params where
  /-- `M`, the LCG multiplier. -/
  multiplier : Word
  /-- `C_PERM`, the permutation multiplier. -/
  permMultiplier : Word
  /-- `SHIFT_BASE`, the base of the variable shift. -/
  shiftBase : Nat
  /-- The upper bit of `SEL`, the state field that selects the variable shift. -/
  selHi : Nat
  /-- The lower bit of `SEL`. -/
  selLo : Nat
  /-- `OUT_SHIFT`, the final xorshift amount. -/
  outShift : Nat
  deriving DecidableEq, Repr

/-- `SERIAL_BYTE_ORDER` (R8, R30; 92 D14): the byte order a HOST uses when it serialises the exported
pair. The spec leaves it open, so every function that needs it takes it as an argument. -/
inductive ByteOrder where
  | little
  | big
  deriving DecidableEq, Repr

/-- FREE VALUE (R22, 93 I2; log entry 3): what `state_o` shows while `BUSY = 1`. -/
opaque Config.busyStatePort : Nat → Word

/-- FREE VALUE (R22, 93 I2; log entry 3): what `inc_o` shows while `BUSY = 1`. -/
opaque Config.busyIncPort : Nat → Word

/-- FREE VALUE (R22, 93 I2; log entry 3): what `result_o` shows while `BUSY = 1`. -/
opaque Config.busyResultPort : Nat → Word

end Sys2Proof
end

