-- ==== Sys2Proof/Machine/State.lean ====
section
/-! DEFINITION. The architectural state (R14), the hidden registers of a BOUNDED in progress (R24), the
response port (R38), the inputs the step reads, and the state after reset (R27, R92). -/

namespace Sys2Proof.Machine

/-- R43: the status of a response; its two bits are `RspStatus.bits`. -/
inductive RspStatus where
  /-- The command completed. -/
  | ok
  /-- BOUNDED with a zero bound; this command set `FAULT`. -/
  | errBoundZero
  /-- A reserved opcode; this command set `FAULT`. -/
  | errIllegalOp
  /-- Refused because `FAULT` was already 1. -/
  | errFaulted
  deriving DecidableEq, Repr

/-- R38, R47: one response, `rsp_status` and `rsp_data`. -/
structure Response where
  status : RspStatus
  data : Word
  deriving DecidableEq, Repr

/-- R79, R80: the two faults a command can raise; `FaultCode.bits` is what `FCODE` records. They are
effects of the machine (R78), not stops of the model. -/
inductive FaultCode where
  | boundZero
  | illegalOp
  deriving DecidableEq, Repr

/-- R24: the hidden registers of a BOUNDED in progress. -/
structure BoundedRegs where
  /-- `S_BOUND`, the bound. -/
  sBound : Word
  /-- `S_X`, the current draw. -/
  sX : Word
  /-- `S_N`, the draws taken so far, of unbounded width. -/
  sN : Nat
  deriving DecidableEq, Repr

/-- The state of one block instance. -/
structure State where
  /-- `STATE` (R16). -/
  state : Word
  /-- `INC` (R17). -/
  inc : Word
  /-- `RESULT` (R19). -/
  result : Word
  /-- `FAULT` (R20). -/
  fault : Bool
  /-- `FCODE` (R20): 0 none, 1 BOUND_ZERO, 2 ILLEGAL_OP, 3 reserved and never produced. -/
  fcode : BitVec 2
  /-- `BUSY` (R20). -/
  busy : Bool
  /-- `S_BOUND`, `S_X`, `S_N` (R24), held only while a BOUNDED is in progress. -/
  draw : Option BoundedRegs
  /-- The response port as the last step left it (R38): `rsp_valid` is whether it holds a response. -/
  rsp : Option Response
  /-- What the host offers on the command port, oldest first. The head is what `cmd_valid` and `cmd_word`
  show in the next step: `some w` is a word, offered until it is accepted (R95), and `none` one step in
  which nothing is offered. -/
  cmdIn : List (Option CmdWord)
  /-- The level of `rst` in the coming steps, the next one first; deasserted after the last (R93). -/
  rstIn : List Bool
  /-- THE MODEL'S OWN: names the free values of the data ports while `BUSY = 1` (R22; log entry 3). -/
  busyTick : Nat
  deriving DecidableEq, Repr

/-- Why the machine has no next state. -/
inductive Fault where
  /-- Raised by `Sys2Proof.Machine.cycle` where `BUSY = 1` and no BOUNDED is held: R24 and R46 exclude such
  a state and give it no effect, and no run from reset reaches one. SAFE: the model stops (log entry 6). -/
  | busyWithoutBounded
  deriving DecidableEq, Repr

/-- Why an instruction has no meaning. -/
inductive Refusal where
  /-- Raised by an arm of `Sys2Proof.Machine.exec` for an instruction not modelled yet; no arm is left that
  does. SAFE: the model stops. -/
  | notModelled (mnemonic : String)
  deriving DecidableEq, Repr

/-- R27, R92: the state after reset, with no response shown, nothing offered and `rst` deasserted
(log entries 1, 2 and 3 for the fields that are not in R27). -/
def State.reset : State where
  state := 0xF13283AE#32
  inc := 0x00000001#32
  result := 0x00000000#32
  fault := false
  fcode := 0#2
  busy := false
  draw := none
  rsp := none
  cmdIn := []
  rstIn := []
  busyTick := 0

end Sys2Proof.Machine
end

