-- ==== Sys2Proof/Machine/Flags.lean ====
section
/-! DEFINITION. The flags of the block: `FAULT`, `FCODE`, `BUSY` (R20, R21), the codes of the faults (R79,
R80) and of the responses (R43). No command sets a flag as an arithmetic side effect (R21). -/

namespace Sys2Proof.Machine

/-- R20, R79, R80: what `FCODE` records. -/
def FaultCode.bits : FaultCode → BitVec 2
  | .boundZero => 1#2
  | .illegalOp => 2#2

/-- R78: the response status named for the code. -/
def FaultCode.status : FaultCode → RspStatus
  | .boundZero => .errBoundZero
  | .illegalOp => .errIllegalOp

/-- R43: `rsp_status`. -/
def RspStatus.bits : RspStatus → BitVec 2
  | .ok => 0#2
  | .errBoundZero => 1#2
  | .errIllegalOp => 2#2
  | .errFaulted => 3#2

/-- R20: `status_o[7:0]`, `{0000, FCODE, FAULT, BUSY}`. -/
def statusByte (fcode : BitVec 2) (fault busy : Bool) : BitVec 8 :=
  0#4 ++ (fcode ++ (BitVec.ofBool fault ++ BitVec.ofBool busy))

end Sys2Proof.Machine
end

