-- ==== Sys2Proof/Machine/Generator.lean ====
section
/-! DEFINITION. The pure functions every command uses (R12): step (R52), advance (R54, R55), perm (R59),
out (R60), threshold (R64) and the product of a draw (R65). Each is total on 32-bit arguments. -/

namespace Sys2Proof.Machine

/-- The source's literals, taken verbatim (R7; 93 I1; log entry 8). -/
def sourceParams : Params where
  multiplier := 0xF13283AD#32
  permMultiplier := 277803737#32
  shiftBase := 4
  selHi := 31
  selLo := 28
  outShift := 22

/-- R52: `step(s, c) = s * M + c` modulo 2^32. The constant stands first in a product, here and below, so that
Lean's kernel does not unfold a multiplication of an unknown word by a large literal. -/
def lcgStep (P : Params) (s c : Word) : Word :=
  P.multiplier * s + c

/-- R54: `step^d(s, c)`, `d` applications of `step`. -/
def lcgSteps (P : Params) (s c : Word) : Nat → Word
  | 0 => s
  | d + 1 => lcgStep P (lcgSteps P s c d) c

/-- R54: `G(d) = sum_{i<d} m^i`, the exact integer sum. -/
def geometricSum (m : Nat) : Nat → Nat
  | 0 => 0
  | d + 1 => geometricSum m d + m ^ d

/-- R55: the accumulators of the jump loop. They are internal to one JUMP (R25). -/
structure JumpLoop where
  accMult : Word
  accPlus : Word
  curMult : Word
  curPlus : Word
  remaining : Word
  deriving DecidableEq, Repr

/-- R55: the values before the first iteration. -/
def jumpLoopStart (P : Params) (c d : Word) : JumpLoop where
  accMult := 1#32
  accPlus := 0#32
  curMult := P.multiplier
  curPlus := c
  remaining := d

/-- R55: the body of the loop. -/
def jumpLoopBody (L : JumpLoop) : JumpLoop where
  accMult := if L.remaining.getLsbD 0 then L.accMult * L.curMult else L.accMult
  accPlus := if L.remaining.getLsbD 0 then L.curMult * L.accPlus + L.curPlus else L.accPlus
  curMult := L.curMult * L.curMult
  curPlus := (L.curMult + 1#32) * L.curPlus
  remaining := L.remaining >>> 1

/-- R55: at most `fuel` iterations, ending when `r = 0`. -/
def jumpLoopRun : Nat → JumpLoop → JumpLoop
  | 0, L => L
  | fuel + 1, L => if L.remaining = 0#32 then L else jumpLoopRun fuel (jumpLoopBody L)

/-- R55: `advance(s, c, d)` by binary exponentiation of the affine map, in at most 32 iterations. -/
def advance (P : Params) (s c d : Word) : Word :=
  let L := jumpLoopRun 32 (jumpLoopStart P c d)
  L.accMult * s + L.accPlus

/-- R59: `shift = 4 + s[31:28]`. -/
def permShift (P : Params) (s : Word) : Nat :=
  P.shiftBase + (s.extractLsb P.selHi P.selLo).toNat

/-- R59: `perm(s) = s ^ ((s >> shift) * C_PERM)`. -/
def perm (P : Params) (s : Word) : Word :=
  s ^^^ (P.permMultiplier * (s >>> permShift P s))

/-- R60: `out(p) = p ^ (p >> 22)`. -/
def outWord (P : Params) (p : Word) : Word :=
  p ^^^ (p >>> P.outShift)

/-- R61, R65: the word one draw yields from `STATE = s`. -/
def drawWord (P : Params) (s : Word) : Word :=
  outWord P (perm P s)

/-- R62, R63: the NEXT transition `T(s) = step(perm(s), INC)`; the step is applied to the permuted value. -/
def nextTransition (P : Params) (s c : Word) : Word :=
  lcgStep P (perm P s) c

/-- R63, R67: `n` successive NEXT transitions. -/
def nextTransitions (P : Params) (s c : Word) : Nat → Word
  | 0 => s
  | n + 1 => nextTransition P (nextTransitions P s c n) c

/-- R64: `threshold(b) = (-b) mod b`, for `b != 0`. DESIGN CHOICE: `threshold(0) = 0` here, since R12 calls the
function total and no rule gives that value; nothing evaluates it (log entry 20). -/
def threshold (b : Word) : Word :=
  (-b) % b

/-- R10, R65: `zext_64(S_BOUND) *64 zext_64(S_X)`, the exact 64-bit product. -/
def drawProduct (b x : Word) : BitVec 64 :=
  b.setWidth 64 * x.setWidth 64

/-- R65: `lo = m[31:0]`, the fractional remainder. -/
def drawLow (b x : Word) : Word :=
  (drawProduct b x).extractLsb' 0 32

/-- R65: `hi = m[63:32]`, the candidate. -/
def drawHigh (b x : Word) : Word :=
  (drawProduct b x).extractLsb' 32 32

/-- R65: whether the draw `x` is rejected for the bound `b`; the threshold is computed only if
`lo < S_BOUND`. -/
def drawRejected (b x : Word) : Bool :=
  if drawLow b x < b then decide (drawLow b x < threshold b) else false

end Sys2Proof.Machine
end

