-- ==== Sys2Proof/Machine/Ops.lean ====
section
/-! DEFINITION. The named operations of the machine: register writes (R11), the response (R47), raising a
fault (R78), refusing a command while faulted (R81), reset (R92), one draw of BOUNDED (R65), and the
inputs of one step (R38, R95). -/

namespace Sys2Proof.Machine

/-! ### Registers (R11, R14) -/

/-- `STATE <- v`. -/
def State.setState (s : State) (v : Word) : State :=
  { s with state := v }

/-- `INC <- v`. -/
def State.setInc (s : State) (v : Word) : State :=
  { s with inc := v }

/-- `RESULT <- v`. -/
def State.setResult (s : State) (v : Word) : State :=
  { s with result := v }

/-! ### Responses and faults -/

/-- R47: `respond(status, RESULT)` ends the command: it shows the response, clears `BUSY` in the same step,
and leaves no hidden register of a BOUNDED behind (R24). -/
def State.respond (s : State) (status : RspStatus) : State :=
  { s with busy := false, draw := none, rsp := some ⟨status, s.result⟩ }

/-- R78: `raise Fault(code)`, all in one step. This is the whole of the block's exception entry: no vector
and no saved state (R84). -/
def State.raiseFault (s : State) (code : FaultCode) : State :=
  { s with fault := true, fcode := code.bits }.respond code.status

/-- R81: a command accepted while `FAULT = 1` is refused and changes nothing but the response. -/
def State.refuseFaulted (s : State) : State :=
  s.respond .errFaulted

/-- R83: the refusal comes before every other outcome of a command: `t` is what the command does where
`FAULT = 0`. -/
def State.unlessFaulted (s t : State) : State :=
  if s.fault then s.refuseFaulted else t

/-- R92, R93: reset. The only way out of the faulted state (R85), whatever was in progress, with no
response. What the host drives on the inputs is not the block's to reset (log entry 10). -/
def State.applyReset (s : State) : State :=
  { s with
    state := 0xF13283AE#32
    inc := 0x00000001#32
    result := 0x00000000#32
    fault := false
    fcode := 0#2
    busy := false
    draw := none
    rsp := none }

/-! ### One draw of BOUNDED -/

/-- R65: a rejected draw leaves the command in progress: `BUSY = 1`, the hidden registers held, no
response. The tick gives the data ports fresh free values (R22; log entry 3). -/
def State.holdDraw (s : State) (regs : BoundedRegs) : State :=
  { s with busy := true, draw := some regs, rsp := none, busyTick := s.busyTick + 1 }

/-- R65: one pass of BOUNDED's loop for `S_BOUND = bound`, after `drawn` earlier draws. `STATE` advances; the
draw is rejected and held, or its high half becomes `RESULT` and the command responds. -/
def State.drawPass (s : State) (bound : Word) (drawn : Nat) : State :=
  let x := drawWord sourceParams s.state
  let t := s.setState (nextTransition sourceParams s.state s.inc)
  if drawRejected bound x then t.holdDraw ⟨bound, x, drawn + 1⟩
  else (t.setResult (drawHigh bound x)).respond .ok

/-! ### The inputs of one step -/

/-- R38, R93: whether `rst` is asserted in this step. -/
def State.rstAsserted (s : State) : Bool :=
  s.rstIn.headD false

/-- The word offered on the command port in this step, if `cmd_valid = 1` (R38). -/
def State.offeredWord (s : State) : Option CmdWord :=
  s.cmdIn.headD none

/-- The level of `rst` moves on by one step. -/
def State.passRst (s : State) : State :=
  { s with rstIn := s.rstIn.tail }

/-- A step that accepts nothing: a gap in the host's offers is over, and an offered word stays offered
(R95). -/
def State.holdOffer (s : State) : State :=
  match s.cmdIn with
  | none :: rest => { s with cmdIn := rest }
  | _ => s

/-- The offered word, accepted, leaves the command port (R38). -/
def State.takeOffer (s : State) : State :=
  { s with cmdIn := s.cmdIn.tail }

/-- A step of the idle block in which nothing is accepted: no response is shown and nothing else changes
(R91). -/
def State.idle (s : State) : State :=
  { s with rsp := none }

/-- What a host does to have `w` accepted in the very next step: no command in progress, `rst` low, and `w`
first on the command port (R38; log entry 7). -/
def State.offerNow (s : State) (w : CmdWord) : State :=
  { s with busy := false, draw := none, cmdIn := some w :: s.cmdIn, rstIn := false :: s.rstIn }

end Sys2Proof.Machine
end

