-- ==== Sys2Proof/Machine/Bounded.lean ====
section
/-! DEFINITION. BOUNDED (43_bounded.md). -/

namespace Sys2Proof.Machine

/-- R65: the step that accepts BOUNDED. A zero bound faults before any draw (R79); otherwise this step is
the first pass of the loop (R46, R98), and `cycle` runs the later ones. -/
def execBounded (bound : Word) (s : State) : Host.Outcome State Fault Refusal :=
  .next (s.unlessFaulted
    (if bound = 0#32 then s.raiseFault .boundZero else s.drawPass bound 0))

end Sys2Proof.Machine
end

