-- ==== Sys2Proof/Machine/Operands.lean ====
section
/-! DEFINITION. What the operands of a command stand for (R40): SEED's increment and state (R49), and the
counts and lengths the assembler and the host turn into operands (R45, R73). -/

namespace Sys2Proof.Machine

/-- R49 step 1: `inc <- (b << 1) | 1`; `b[31]` is shifted out. -/
def seedIncrement (streamId : Word) : Word :=
  (streamId <<< 1) ||| 1#32

/-- R49 steps 2 to 4: one blind advance from zero, the wrapping add of the seed, a second advance. -/
def seedState (P : Params) (seedValue inc : Word) : Word :=
  lcgStep P (lcgStep P 0#32 inc + seedValue) inc

/-- R45: the count of `jumpb k`, `(2^32 - k) mod 2^32`, for `k` from 0 to 4294967295. -/
def backwardCount (k : Nat) : Word :=
  BitVec.ofNat 32 ((2 ^ 32 - k) % 2 ^ 32)

/-- R45, R73: a length as a bound, `min(n, 4294967295)`. -/
def clampLength (n : Nat) : Word :=
  BitVec.ofNat 32 (min n 4294967295)

end Sys2Proof.Machine
end

