-- ==== Sys2Proof/Machine/Control.lean ====
section
/-! DEFINITION. NOP, SEED and LOAD (40_control.md). A meaning is what the block does in the step that
accepts the command (R46). -/

namespace Sys2Proof.Machine

/-- R48: NOP responds and writes nothing. -/
def execNop (s : State) : Host.Outcome State Fault Refusal :=
  .next (s.unlessFaulted (s.respond .ok))

/-- R49: SEED. -/
def execSeed (seedValue streamId : Word) (s : State) : Host.Outcome State Fault Refusal :=
  let inc := seedIncrement streamId
  .next (s.unlessFaulted
    (((s.setState (seedState sourceParams seedValue inc)).setInc inc).respond .ok))

/-- R50: LOAD writes `STATE` and `INC` verbatim; bit 0 of `INC` is not forced. -/
def execLoad (stateValue incValue : Word) (s : State) : Host.Outcome State Fault Refusal :=
  .next (s.unlessFaulted (((s.setState stateValue).setInc incValue).respond .ok))

end Sys2Proof.Machine
end

