-- ==== Sys2Proof/Machine/LcgAdvance.lean ====
section
/-! DEFINITION. STEP and JUMP (41_lcg_step.md). -/

namespace Sys2Proof.Machine

/-- R53: STEP, one pure LCG advance with no output. -/
def execStep (s : State) : Host.Outcome State Fault Refusal :=
  .next (s.unlessFaulted ((s.setState (lcgStep sourceParams s.state s.inc)).respond .ok))

/-- R56: JUMP, `delta` pure LCG steps at once; atomic (R25), with no output. -/
def execJump (delta : Word) (s : State) : Host.Outcome State Fault Refusal :=
  .next (s.unlessFaulted ((s.setState (advance sourceParams s.state s.inc delta)).respond .ok))

end Sys2Proof.Machine
end

