-- ==== Sys2Proof/Machine/Output.lean ====
section
/-! DEFINITION. NEXT (42_output.md). -/

namespace Sys2Proof.Machine

/-- R61, R62: NEXT. The output is taken from the permuted value and the step is applied to it. -/
def execNext (s : State) : Host.Outcome State Fault Refusal :=
  .next (s.unlessFaulted
    (((s.setResult (drawWord sourceParams s.state)).setState
      (nextTransition sourceParams s.state s.inc)).respond .ok))

end Sys2Proof.Machine
end

