-- ==== Sys2Proof/Machine/Dispatch.lean ====
section
/-! DEFINITION. One arm per command (R41, R51). -/

namespace Sys2Proof.Machine

def exec (i : Instr) (s : State) : Host.Outcome State Fault Refusal :=
  match i with
  | .nop => Sys2Proof.Machine.execNop s
  | .seed seedValue streamId => Sys2Proof.Machine.execSeed seedValue streamId s
  | .load stateValue incValue => Sys2Proof.Machine.execLoad stateValue incValue s
  | .step => Sys2Proof.Machine.execStep s
  | .next => Sys2Proof.Machine.execNext s
  | .jump delta => Sys2Proof.Machine.execJump delta s
  | .bounded bound => Sys2Proof.Machine.execBounded bound s

end Sys2Proof.Machine
end

