-- ==== Sys2Proof/Machine/Cycle.lean ====
section
/-! DEFINITION. One model step of the block (R46, R98): reset, a draw of a BOUNDED in progress, the
acceptance of a command, or an idle step. -/

namespace Sys2Proof.Machine

/-- R46, R83: the command cycle for an accepted word. A refusal does not decode the word (R81); a reserved
opcode raises ILLEGAL_OP (R80); otherwise the command runs. -/
def acceptCommand (w : CmdWord) (s : State) : Host.Outcome State Fault Refusal :=
  if s.fault then .next s.refuseFaulted
  else
    match decode w with
    | .illegal _ => .next (s.raiseFault .illegalOp)
    | .command i => exec i s

/-- R65, R95: a step while `BUSY = 1` is one more draw of the BOUNDED in progress, and an offered word is
held. -/
def busyCycle (s : State) : Host.Outcome State Fault Refusal :=
  match s.draw with
  | none => .fault .busyWithoutBounded
  | some regs => .next (s.holdOffer.drawPass regs.sBound regs.sN)

/-- R38, R91: a step while `BUSY = 0` accepts the offered word, if there is one. -/
def readyCycle (s : State) : Host.Outcome State Fault Refusal :=
  match s.offeredWord with
  | some w => acceptCommand w s.takeOffer
  | none => .next s.holdOffer.idle

/-- One step. `rst` overrides everything, and what is offered then is not accepted (R93). -/
def cycle (s : State) : Host.Outcome State Fault Refusal :=
  if s.rstAsserted then .next s.passRst.holdOffer.applyReset
  else if s.busy then busyCycle s.passRst
  else readyCycle s.passRst

end Sys2Proof.Machine
end

