-- ==== Sys2Proof/Machine/Step.lean ====
section
/-! DEFINITION. The step of the machine, and a command placed where the next step accepts it. -/

namespace Sys2Proof.Machine

/-- One model step (R46, R98). -/
def step (s : State) : Host.Outcome State Fault Refusal :=
  cycle s

/-- `s` with the table word offered so that the very next step accepts it. The block fetches nothing (R35):
this stands for the host's offer on the command port (R38; log entry 7). -/
def State.withFetchWord (s : State) (nbits w : Nat) : State :=
  s.offerNow (tableWord nbits w)

end Sys2Proof.Machine
end

