-- ==== Sys2Proof/Machine/Assembler.lean ====
section
/-! DEFINITION. The assembler (R44) and its pseudo-instructions (R45): from a line of text to an assembler
line, a command, and the written form of its word. -/

namespace Sys2Proof.Machine

/-- R45: the one command an assembler line stands for, its operands taken as 32-bit words. -/
def asmExpansion (l : AsmLine) : Instr :=
  match l with
  | .nop => .nop
  | .seed a b => .seed (BitVec.ofNat 32 a) (BitVec.ofNat 32 b)
  | .load a b => .load (BitVec.ofNat 32 a) (BitVec.ofNat 32 b)
  | .step => .step
  | .next => .next
  | .jump a => .jump (BitVec.ofNat 32 a)
  | .bounded a => .bounded (BitVec.ofNat 32 a)
  | .jumpb k => .jump (backwardCount k)
  | .pick n => .bounded (clampLength n)

/-- R44: the assembler refuses a line with an operand out of range. -/
def assemble (l : AsmLine) : Option Instr :=
  if l.wellFormed then some (asmExpansion l) else none

/-! ### Text -/

/-- R44: the characters of a line before its comment. -/
def stripComment (line : List Char) : List Char :=
  line.takeWhile (· != ';')

/-- A blank between tokens (log entry 12). -/
def isBlank (c : Char) : Bool :=
  c == ' ' || c == '\t'

/-- The text without the blanks at its start and its end. -/
def trimBlanks (cs : List Char) : List Char :=
  ((cs.dropWhile isBlank).reverse.dropWhile isBlank).reverse

/-- The parts of a text between commas. -/
def splitCommas : List Char → List (List Char)
  | [] => [[]]
  | c :: cs =>
    if c == ',' then [] :: splitCommas cs
    else
      match splitCommas cs with
      | [] => [[c]]
      | part :: parts => (c :: part) :: parts

/-- The value of a digit in base 10 or 16. -/
def digitValue (base : Nat) (c : Char) : Option Nat :=
  let v :=
    if '0' ≤ c ∧ c ≤ '9' then some (c.toNat - '0'.toNat)
    else if 'a' ≤ c ∧ c ≤ 'f' then some (c.toNat - 'a'.toNat + 10)
    else if 'A' ≤ c ∧ c ≤ 'F' then some (c.toNat - 'A'.toNat + 10)
    else none
  v.bind fun n => if n < base then some n else none

/-- The value of a run of digits read after `acc`. -/
def digitsValue (base : Nat) : Nat → List Char → Option Nat
  | acc, [] => some acc
  | acc, c :: cs => (digitValue base c).bind fun d => digitsValue base (acc * base + d) cs

/-- R44: an unsigned decimal or `0x`-prefixed hexadecimal integer. -/
def parseNumber (cs : List Char) : Option Nat :=
  match cs with
  | [] => none
  | ['0', 'x'] => none
  | '0' :: 'x' :: ds => digitsValue 16 0 ds
  | ds => digitsValue 10 0 ds

/-- The values of the operands, if each is a number. -/
def parseOperands : List (List Char) → Option (List Nat)
  | [] => some []
  | p :: ps =>
    (parseNumber (trimBlanks p)).bind fun n => (parseOperands ps).map fun ns => n :: ns

/-- R44, R45: the mnemonics, in lower case, each with its count of operands. -/
def asmLineOf (mnemonic : List Char) (operands : List Nat) : Option AsmLine :=
  match mnemonic, operands with
  | ['n', 'o', 'p'], [] => some .nop
  | ['s', 'e', 'e', 'd'], [a, b] => some (.seed a b)
  | ['l', 'o', 'a', 'd'], [a, b] => some (.load a b)
  | ['s', 't', 'e', 'p'], [] => some .step
  | ['n', 'e', 'x', 't'], [] => some .next
  | ['j', 'u', 'm', 'p'], [a] => some (.jump a)
  | ['b', 'o', 'u', 'n', 'd', 'e', 'd'], [a] => some (.bounded a)
  | ['j', 'u', 'm', 'p', 'b'], [k] => some (.jumpb k)
  | ['p', 'i', 'c', 'k'], [n] => some (.pick n)
  | _, _ => none

/-- What the assembler makes of one line of text. -/
inductive AsmText where
  /-- Nothing but blanks and a comment: no command. -/
  | empty
  /-- One command. -/
  | command (i : Instr)
  /-- R44: an unknown mnemonic, a wrong operand count, or an operand that is no number or out of range. -/
  | refused
  deriving DecidableEq, Repr

/-- R44: one line of text, `mnemonic [operand [, operand]]`. -/
def assembleLine (line : List Char) : AsmText :=
  match trimBlanks (stripComment line) with
  | [] => .empty
  | text =>
    let rest := trimBlanks (text.dropWhile fun c => !isBlank c)
    let parts := if rest.isEmpty then [] else splitCommas rest
    match ((parseOperands parts).bind (asmLineOf (text.takeWhile fun c => !isBlank c))).bind assemble with
    | some i => .command i
    | none => .refused

/-- A hexadecimal digit, upper case as in 95_test_vectors.md. -/
def hexDigit (n : Nat) : Char :=
  if n < 10 then Char.ofNat ('0'.toNat + n) else Char.ofNat ('A'.toNat + (n - 10))

/-- The `digits` low hexadecimal digits of `v`, the most significant first. -/
def hexDigits : Nat → Nat → List Char
  | 0, _ => []
  | digits + 1, v => hexDigits digits (v / 16) ++ [hexDigit (v % 16)]

/-- R44: the 18 hexadecimal digits of a command word, grouped `b_a_op`. -/
def writeWord (w : CmdWord) : List Char :=
  hexDigits 8 (bField w).toNat ++ '_' :: (hexDigits 8 (aField w).toNat ++ '_' :: hexDigits 2 (opField w).toNat)

end Sys2Proof.Machine
end

