-- ==== Sys2Proof/Machine/Ports.lean ====
section
/-! DEFINITION. The output ports (R20, R22, R38). They are read from the state a step leaves, and reading
them changes nothing (R32). -/

namespace Sys2Proof.Machine

/-- R22: `state_o` is `STATE`, and a free value while `BUSY = 1` (93 I2; log entry 3). -/
def State.stateO (s : State) : Word :=
  if s.busy then Config.busyStatePort s.busyTick else s.state

/-- R22: `inc_o` is `INC`, and a free value while `BUSY = 1`. -/
def State.incO (s : State) : Word :=
  if s.busy then Config.busyIncPort s.busyTick else s.inc

/-- R22: `result_o` is `RESULT`, and a free value while `BUSY = 1`. -/
def State.resultO (s : State) : Word :=
  if s.busy then Config.busyResultPort s.busyTick else s.result

/-- R20: `status_o`, always valid (R22). -/
def State.statusO (s : State) : BitVec 8 :=
  statusByte s.fcode s.fault s.busy

/-- R38: `cmd_ready = NOT BUSY`; it stays 1 while `FAULT = 1`. -/
def State.cmdReady (s : State) : Bool :=
  !s.busy

/-- R38: `cmd_valid` in the coming step. -/
def State.cmdValid (s : State) : Bool :=
  s.offeredWord.isSome

/-- R38: `rsp_valid`. -/
def State.rspValid (s : State) : Bool :=
  s.rsp.isSome

/-- R43: `rsp_status`, where a response is shown. -/
def State.rspStatus (s : State) : Option (BitVec 2) :=
  s.rsp.map fun r => r.status.bits

/-- R38: `rsp_data`, where a response is shown; valid whenever it is (R96). -/
def State.rspData (s : State) : Option Word :=
  s.rsp.map fun r => r.data

/-- R23: the exported state, the ordered pair `(state_o, inc_o)`; exact only while `BUSY = 0` (R96). -/
def State.exported (s : State) : Word × Word :=
  (s.stateO, s.incO)

end Sys2Proof.Machine
end

