-- ==== Sys2Proof/Machine/HostUsage.lean ====
section
/-! DEFINITION. What a host composes from the commands of the block (44_host_usage.md) and how it
serialises the exported pair (R23, R30). None of it is a command of the block (R6). -/

namespace Sys2Proof.Machine

/-- What the spec tells a host model to refuse. -/
inductive HostRefusal where
  /-- R76, 93 I8: the construction of floats is not in the source. SAFE: the host model stops. -/
  | floatConstruction
  /-- R75, 93 I9: a shuffle of more than 2^32 - 1 elements is not defined. SAFE: the host model stops. -/
  | shuffleTooLong
  deriving DecidableEq, Repr

/-- How a host operation ends; `s` is the block's state then. -/
inductive HostResult (α : Type) where
  /-- The operation's value. -/
  | done (value : α) (s : State)
  /-- R77: a command of it was answered with an error status. -/
  | failed (status : RspStatus) (s : State)
  /-- No response within the steps the host waits; a hang (R68) never gives one. -/
  | waiting (s : State)
  /-- The host model refuses the operation. -/
  | refused (r : HostRefusal)
  /-- The block has no next state. -/
  | stopped
  deriving DecidableEq, Repr

/-- Go on with the value of an operation that is done. -/
def HostResult.andThen {α β : Type} (r : HostResult α) (k : α → State → HostResult β) : HostResult β :=
  match r with
  | .done value s => k value s
  | .failed status s => .failed status s
  | .waiting s => .waiting s
  | .refused why => .refused why
  | .stopped => .stopped

/-- Wait up to `patience` steps for the response of the command in hand (R95). -/
def awaitResponse : Nat → State → HostResult Word
  | 0, s => .waiting s
  | patience + 1, s =>
    match step s with
    | .next t =>
      match t.rsp with
      | some r => if r.status = .ok then .done r.data t else .failed r.status t
      | none => awaitResponse patience t
    | .fault _ => .stopped
    | .refused _ => .stopped

/-- Issue one command and take its response (R38); the host offers nothing else and leaves `rst` low. DESIGN
CHOICE: the spec does not say from what state a host operation starts. It is meant for an idle block; on a
busy one the word is offered at once and the first response shown, an earlier BOUNDED's, is taken (log
entry 21). -/
def issue (patience : Nat) (i : Instr) (s : State) : HostResult Word :=
  awaitResponse patience { s with cmdIn := [some (encode i)], rstIn := [] }

/-! ### Narrow and wide integers -/

/-- R70: bit 31 of the raw word. -/
def boolOfRaw (raw : Word) : Bool :=
  raw.getLsbD 31

/-- R71: `raw[31:24]`. -/
def u8OfRaw (raw : Word) : BitVec 8 :=
  raw.extractLsb' 24 8

/-- R71: `raw[31:16]`. -/
def u16OfRaw (raw : Word) : BitVec 16 :=
  raw.extractLsb' 16 16

/-- R72: `{raw2, raw1}`; the first draw is the low half. -/
def u64OfRaws (raw1 raw2 : Word) : BitVec 64 :=
  raw2 ++ raw1

/-- R70: `next_bool`. -/
def hostNextBool (s : State) : HostResult Bool :=
  (issue 1 .next s).andThen fun raw t => .done (boolOfRaw raw) t

/-- R71: `next_u8`. -/
def hostNextU8 (s : State) : HostResult (BitVec 8) :=
  (issue 1 .next s).andThen fun raw t => .done (u8OfRaw raw) t

/-- R71: `next_u16`. -/
def hostNextU16 (s : State) : HostResult (BitVec 16) :=
  (issue 1 .next s).andThen fun raw t => .done (u16OfRaw raw) t

/-- R72: `next_u64`. -/
def hostNextU64 (s : State) : HostResult (BitVec 64) :=
  (issue 1 .next s).andThen fun raw1 t =>
    (issue 1 .next t).andThen fun raw2 u => .done (u64OfRaws raw1 raw2) u

/-! ### Picking and shuffling -/

/-- R74: the index `pick` selects in a sequence of length `n`; each BOUNDED may take `patience` draws. -/
def hostPickIndex (patience n : Nat) (s : State) : HostResult Word :=
  issue patience (.bounded (clampLength n)) s

/-- R74: `pick`: the element at the returned index. -/
def hostPick {α : Type} (patience : Nat) (xs : List α) (s : State) : HostResult (Option α) :=
  (hostPickIndex patience xs.length s).andThen fun index t => .done xs[index.toNat]? t

/-- R75: `swap(e[i], e[j])`. -/
def swapAt {α : Type} (xs : List α) (i j : Nat) : List α :=
  match xs[i]?, xs[j]? with
  | some x, some y => (xs.set i y).set j x
  | _, _ => xs

/-- R75: the loop of `shuffle` at index `i`, with `remaining` elements from there on. -/
def shuffleFrom {α : Type} (patience : Nat) : Nat → Nat → List α → State → HostResult (List α)
  | 0, _, xs, s => .done xs s
  | 1, _, xs, s => .done xs s
  | remaining + 2, i, xs, s =>
    (issue patience (.bounded (BitVec.ofNat 32 (remaining + 2))) s).andThen fun offset t =>
      shuffleFrom patience (remaining + 1) (i + 1) (swapAt xs i (i + offset.toNat)) t

/-- R75: `shuffle`, forward-scanning Fisher-Yates, refused above 2^32 - 1 elements. -/
def hostShuffle {α : Type} (patience : Nat) (xs : List α) (s : State) : HostResult (List α) :=
  if xs.length > 4294967295 then .refused .shuffleTooLong
  else shuffleFrom patience xs.length 0 xs s

/-! ### Floating point -/

/-- R76: the four float constructions, which a host model must refuse. -/
inductive FloatOp where
  | f32Unit
  | f64Unit
  | f32Signed
  | f64Signed
  deriving DecidableEq, Repr

/-- R76: every float construction is refused rather than given one of the model's own. -/
def hostNextFloat (op : FloatOp) (_ : State) : HostResult Word :=
  match op with
  | .f32Unit => .refused .floatConstruction
  | .f64Unit => .refused .floatConstruction
  | .f32Signed => .refused .floatConstruction
  | .f64Signed => .refused .floatConstruction

/-! ### Serialising the exported pair -/

/-- The four bytes of a word, in the host's byte order (R8, R30). -/
def wordBytes (order : ByteOrder) (w : Word) : List (BitVec 8) :=
  let low := [w.extractLsb' 0 8, w.extractLsb' 8 8, w.extractLsb' 16 8, w.extractLsb' 24 8]
  match order with
  | .little => low
  | .big => low.reverse

/-- The word of four bytes, in the host's byte order. -/
def bytesWord (order : ByteOrder) (b0 b1 b2 b3 : BitVec 8) : Word :=
  match order with
  | .little => b3 ++ (b2 ++ (b1 ++ b0))
  | .big => b0 ++ (b1 ++ (b2 ++ b3))

/-- R23, R30: the exported pair as bytes, in the order `(state, inc)`. -/
def serialise (order : ByteOrder) (pair : Word × Word) : List (BitVec 8) :=
  wordBytes order pair.1 ++ wordBytes order pair.2

/-- The pair of eight bytes, if there are eight. -/
def deserialise (order : ByteOrder) (bytes : List (BitVec 8)) : Option (Word × Word) :=
  match bytes with
  | [a0, a1, a2, a3, b0, b1, b2, b3] => some (bytesWord order a0 a1 a2 a3, bytesWord order b0 b1 b2 b3)
  | _ => none

/-- R23, R37: the command that imports an exported pair. -/
def importCommand (pair : Word × Word) : Instr :=
  .load pair.1 pair.2

end Sys2Proof.Machine
end

