-- ==== Sys2Proof/Machine/Observe.lean ====
section
/-! DEFINITION. The end of a run and its observation (R99), and the counts that follow a run. -/

namespace Sys2Proof.Machine

/-- How many words the host still offers and the block has not accepted (R38, R95). -/
def State.pendingCommands (s : State) : Nat :=
  s.cmdIn.countP Option.isSome

/-- 1 while a command is accepted and not complete, else 0 (R20). -/
def State.inProgress (s : State) : Nat :=
  s.busy.toNat

/-- R38, R99: the responses of `k` steps, in order; each is shown by the step that emits it. -/
def responsesOf : Nat → State → List Response
  | 0, _ => []
  | k + 1, s =>
    match step s with
    | .next t => t.rsp.toList ++ responsesOf k t
    | .fault _ => []
    | .refused _ => []

/-- R99: what a run shows at its end: the responses in order and the final registers. -/
structure Observation where
  responses : List Response
  state : Word
  inc : Word
  result : Word
  fault : Bool
  fcode : BitVec 2
  deriving DecidableEq, Repr

/-- R99: the observation of a run that ends in `s` after `responses`. -/
def State.observation (s : State) (responses : List Response) : Observation where
  responses := responses
  state := s.state
  inc := s.inc
  result := s.result
  fault := s.fault
  fcode := s.fcode

/-- R99: the last response has been emitted, with `BUSY = 0`. DESIGN CHOICE: a run whose last command a reset
abandons counts as finished too; R99 says nothing of such a run (log entry 22). -/
def State.finished (s : State) : Bool :=
  !s.busy && s.pendingCommands == 0

/-- R99: the observation of the run from `s`, if it ends within `fuel` steps. A hang has none for any `fuel`
(R68). -/
def observeFrom : Nat → List Response → State → Option Observation
  | 0, acc, s => if s.finished then some (s.observation acc) else none
  | fuel + 1, acc, s =>
    if s.finished then some (s.observation acc)
    else
      match step s with
      | .next t => observeFrom fuel (acc ++ t.rsp.toList) t
      | .fault _ => none
      | .refused _ => none

/-- R99: the run of a command sequence from a given start state. DESIGN CHOICE: the levels of `rst` in that
state stand, so a reset may interrupt the run, of which R99 says nothing (log entry 22). DESIGN CHOICE: R99
does not say that the start state is idle; from one with `BUSY = 1` the response of the earlier BOUNDED
comes first in the list (log entry 23). -/
def observe (fuel : Nat) (commands : List CmdWord) (s : State) : Option Observation :=
  observeFrom fuel [] { s with cmdIn := commands.map some }

end Sys2Proof.Machine
end

