-- ==== Sys2Proof/Safety.lean ====
section
/-! DEFINITION. What a consistent state is (R14, R19, R20, R24, R47), in the terms the statements use. -/

namespace Sys2Proof.Machine

/-- R20, R79, R80: `FCODE` is 0 exactly while `FAULT = 0`, and the reserved code 3 is never produced. -/
def FaultFlagsConsistent (s : State) : Prop :=
  s.fcode ≠ 3#2 ∧ (s.fault = false ↔ s.fcode = 0#2)

/-- R24, R46, R65, R79, R81: `BUSY = 1` exactly while a BOUNDED is held; then no fault is set, the bound is
not zero, a draw has been taken, and the current draw is a rejected one. -/
def DrawConsistent (s : State) : Prop :=
  match s.draw with
  | none => s.busy = false
  | some regs =>
    s.busy = true ∧ s.fault = false ∧ regs.sBound ≠ 0#32 ∧ 1 ≤ regs.sN ∧
      drawRejected regs.sBound regs.sX = true

/-- R19, R43, R47: a response is shown only when its command is complete, it carries `RESULT`, and its
status is an error exactly where `FAULT = 1`. -/
def ResponseConsistent (s : State) : Prop :=
  match s.rsp with
  | none => True
  | some r => s.busy = false ∧ r.data = s.result ∧ (r.status = .ok ↔ s.fault = false)

/-- The invariant of the machine. -/
def Consistent (s : State) : Prop :=
  FaultFlagsConsistent s ∧ DrawConsistent s ∧ ResponseConsistent s

/-- The machine goes on from `s`. -/
def Goes (s : State) : Prop :=
  ∃ t, step s = .next t

/-- The block is idle, `rst` is low, and `w` is offered first: the next step accepts `w` (R38). -/
def Accepts (s : State) (w : CmdWord) : Prop :=
  s.rstAsserted = false ∧ s.busy = false ∧ s.offeredWord = some w

/-- The state in which an accepted command runs: `rst` and the offered word have been taken. -/
def accepted (s : State) : State :=
  s.passRst.takeOffer

/-- Two states that differ in `RESULT` and the data of the response shown only. -/
def SameButResult (s t : State) : Prop :=
  s.state = t.state ∧ s.inc = t.inc ∧ s.fault = t.fault ∧ s.fcode = t.fcode ∧ s.busy = t.busy ∧
    s.draw = t.draw ∧ s.rsp.map (·.status) = t.rsp.map (·.status) ∧ s.cmdIn = t.cmdIn ∧
    s.rstIn = t.rstIn ∧ s.busyTick = t.busyTick

/-- `k` steps of the machine, all of which go on, lead from `s` to `t`. -/
def StepsTo : Nat → State → State → Prop
  | 0, s, t => s = t
  | k + 1, s, t => ∃ u, step s = .next u ∧ StepsTo k u t

/-- `rst` stays low in every coming step. -/
def RstLow (s : State) : Prop :=
  ∀ level ∈ s.rstIn, level = false

/-- The commands `is`, run one after the other, each to its next state; for commands that complete in one
step (R46). -/
def execAll : List Instr → State → Option State
  | [], s => some s
  | i :: is, s =>
    match exec i s with
    | .next t => execAll is t
    | .fault _ => none
    | .refused _ => none

end Sys2Proof.Machine
end

