-- ==== Sys2Proof/Certificates/Slice0/Obligations.lean ====
section
/-! DEFINITION. The statements for the provers, from the numbered rules of spec/. A result is written as the
next state itself, a record update of the state before, so that it says the frame as well: every field it
does not name is unchanged. `rstIn` and `cmdIn`, of which a step takes the level and the offer of that step,
are the model's form of the input ports (log entry 1). -/

open Sys2Proof Sys2Proof.Machine

/-! ### Encoding -/

/-- Words written out in 95_test_vectors.md (sections 2.10 and 3, as `b_a_op`) decode to their commands. -/
def Obligations.SampleWordsDecode : Prop :=
  decode 0x000000000000000000#72 = .command .nop ∧
  decode 0x000000360000002A01#72 = .command (.seed 42#32 54#32) ∧
  decode 0x00000007AE1CF77602#72 = .command (.load 0xAE1CF776#32 7#32) ∧
  decode 0x000000000000000003#72 = .command .step ∧
  decode 0x123456789ABCDEF004#72 = .command .next ∧
  decode 0x00000000FFFFFFFD05#72 = .command (.jump 0xFFFFFFFD#32) ∧
  decode 0x000000000001413706#72 = .command (.bounded 82231#32) ∧
  decode 0x000000000000000007#72 = .illegal 0x07#8 ∧
  decode 0xFFFFFFFFFFFFFFFFFF#72 = .illegal 0xFF#8

/-- R39, R41: decoding the word of a command gives the command back, at every value of every operand. -/
def Obligations.DecodeOfEncode : Prop :=
  ∀ i : Instr, decode (encode i) = .command i

/-- R39, R40, R41, the other direction: a word that decodes to a command is that command's word but for the
operands the command does not use, which `encode` writes as 0. -/
def Obligations.EncodeOfDecode : Prop :=
  ∀ (w : CmdWord) (i : Instr), decode w = .command i →
    encode i = packCommand (w.extractLsb' 0 8)
      (if (opField w).toNat ∈ [0x01, 0x02, 0x05, 0x06] then w.extractLsb' 8 32 else 0#32)
      (if (opField w).toNat ∈ [0x01, 0x02] then w.extractLsb' 40 32 else 0#32)

/-- R39: every command is 72 bits in one format, `{b, a, op}`: `op` in [7:0], `a` in [39:8], `b` in [71:40],
and the three fields of any word are its bits. -/
def Obligations.CommandWordLayout : Prop :=
  (∀ (op : Opcode) (a b : Word),
    (packCommand op a b).toNat = b.toNat * 2 ^ 40 + a.toNat * 2 ^ 8 + op.toNat) ∧
  (∀ w : CmdWord,
    (opField w).toNat = w.toNat % 2 ^ 8 ∧ (aField w).toNat = w.toNat / 2 ^ 8 % 2 ^ 32 ∧
      (bField w).toNat = w.toNat / 2 ^ 40 ∧ packCommand (opField w) (aField w) (bField w) = w)

/-- R40: operands are used exactly as they stand; an operand a command does not use is ignored; the
assembler writes it as 0. -/
def Obligations.OperandsUsedOrIgnored : Prop :=
  (∀ a b : Word,
    decode (packCommand 0x01#8 a b) = .command (.seed a b) ∧
    decode (packCommand 0x02#8 a b) = .command (.load a b) ∧
    decode (packCommand 0x05#8 a b) = .command (.jump a) ∧
    decode (packCommand 0x06#8 a b) = .command (.bounded a)) ∧
  (∀ (op : Opcode) (a b : Word), op ∈ [0x00#8, 0x03#8, 0x04#8] →
    decode (packCommand op a b) = decode (packCommand op 0#32 0#32)) ∧
  (∀ (op : Opcode) (a b : Word), op ∈ [0x05#8, 0x06#8] →
    decode (packCommand op a b) = decode (packCommand op a 0#32)) ∧
  (encode .nop = packCommand 0x00#8 0#32 0#32 ∧ encode .step = packCommand 0x03#8 0#32 0#32 ∧
    encode .next = packCommand 0x04#8 0#32 0#32 ∧
    (∀ a, encode (.jump a) = packCommand 0x05#8 a 0#32) ∧
    ∀ a, encode (.bounded a) = packCommand 0x06#8 a 0#32)

/-- R42, R80: every word decodes to a command or to the illegal verdict, which is exactly that of the opcodes
0x07 to 0xFF; accepting one of these while `FAULT = 0` raises ILLEGAL_OP and changes no other register. -/
def Obligations.ReservedOpcodesRaiseIllegalOp : Prop :=
  (∀ w : CmdWord, 0x07 ≤ (opField w).toNat → decode w = .illegal (opField w)) ∧
  (∀ w : CmdWord, (opField w).toNat < 0x07 → ∃ i, decode w = .command i) ∧
  (∀ (s : State) (w : CmdWord), Accepts s w → s.fault = false → 0x07 ≤ (opField w).toNat →
    step s = .next
      { s with
        rstIn := s.rstIn.tail, cmdIn := s.cmdIn.tail
        fault := true, fcode := 2#2, busy := false, draw := none
        rsp := some ⟨.errIllegalOp, s.result⟩ })

/-- R45: `jumpb k` is one jump by `(2^32 - k) mod 2^32`, and `pick n` one draw bounded by
`min(n, 4294967295)`; `pick 0` expands to `bounded 0`, which faults. -/
def Obligations.PseudoInstructionsExpand : Prop :=
  (∀ k : Nat, k ≤ 4294967295 →
    ∃ d : Word, assemble (.jumpb k) = some (.jump d) ∧ d.toNat = (2 ^ 32 - k) % 2 ^ 32) ∧
  (∀ n : Nat, ∃ m : Word, assemble (.pick n) = some (.bounded m) ∧ m.toNat = min n 4294967295) ∧
  assemble (.jumpb 0) = some (.jump 0#32) ∧ assemble (.pick 0) = some (.bounded 0#32) ∧
  (∀ s : State, s.fault = false → (execAll [.bounded 0#32] s).map (·.fault) = some true)

/-! ### The command cycle -/

/-- R38, R46: where the block accepts a word that decodes to a command, the step is that command's `exec`,
with `rst`'s level and the offered word taken off the inputs. -/
def Obligations.StepRunsTheDecodedCommand : Prop :=
  ∀ (s : State) (w : CmdWord) (i : Instr), Accepts s w → decode w = .command i →
    step s = exec i { s with rstIn := s.rstIn.tail, cmdIn := s.cmdIn.tail }

/-- R81: while `FAULT = 1` every accepted word, a reserved opcode too, is refused with ERR_FAULTED and
`RESULT`, and no register changes. -/
def Obligations.FaultedBlockRefusesEveryCommand : Prop :=
  (∀ (s : State) (w : CmdWord), Accepts s w → s.fault = true →
    step s = .next
      { s with
        rstIn := s.rstIn.tail, cmdIn := s.cmdIn.tail
        busy := false, draw := none, rsp := some ⟨.errFaulted, s.result⟩ }) ∧
  (∀ (s : State) (i : Instr), s.fault = true →
    exec i s = .next { s with busy := false, draw := none, rsp := some ⟨.errFaulted, s.result⟩ })

/-- R83: one command reports at most one outcome, and the first check that applies wins: refusal,
ILLEGAL_OP, BOUND_ZERO; any other command responds OK or is a BOUNDED still in progress. -/
def Obligations.FirstCheckWins : Prop :=
  ∀ (s t : State) (w : CmdWord), Accepts s w → step s = .next t →
    (s.fault = true → t.rsp = some ⟨.errFaulted, s.result⟩) ∧
    (s.fault = false → 0x07 ≤ (opField w).toNat → t.rsp = some ⟨.errIllegalOp, s.result⟩) ∧
    (s.fault = false → (opField w).toNat = 0x06 → aField w = 0#32 →
      t.rsp = some ⟨.errBoundZero, s.result⟩) ∧
    (s.fault = false → (opField w).toNat < 0x07 → ¬((opField w).toNat = 0x06 ∧ aField w = 0#32) →
      t.rsp = some ⟨.ok, t.result⟩ ∨ (t.rsp = none ∧ t.busy = true ∧ (opField w).toNat = 0x06))

/-- R82: every command goes on to a next state, in every state of the block. -/
def Obligations.EveryCommandHasANextState : Prop :=
  ∀ (i : Instr) (s : State), ∃ t, exec i s = .next t ∧ (t.busy = true ∨ t.rsp.isSome = true)

/-- R33, R38, R95: while `BUSY = 1` an offered word is held, neither lost nor executed, and `cmd_ready` is
`NOT BUSY`; a word leaves the command port only in a step that begins with `BUSY = 0` and, since what is
offered while `rst` is asserted is not accepted (R93), with `rst` low. That the host holds its offer until it
is accepted is log entry 1, and that the offer survives a reset step is the model's reading (log entry 10,
DEDUCED). -/
def Obligations.OfferHeldWhileBusy : Prop :=
  (∀ (s t : State) (w : CmdWord), s.busy = true → s.offeredWord = some w → step s = .next t →
    t.cmdIn = s.cmdIn) ∧
  (∀ s : State, s.cmdReady = !s.busy) ∧
  (∀ s t : State, step s = .next t → t.pendingCommands ≠ s.pendingCommands →
    s.cmdReady = true ∧ s.cmdValid = true ∧ s.rstAsserted = false)

/-- R38: without reset, every accepted command gives exactly one response: the commands waiting, the command
in progress and the responses shown add up. -/
def Obligations.OneResponsePerCommand : Prop :=
  ∀ (k : Nat) (s t : State), Consistent s → RstLow s → StepsTo k s t →
    s.pendingCommands + s.inProgress = t.pendingCommands + t.inProgress + (responsesOf k s).length

/-- R91: a step of an idle block to which nothing is offered leaves every register as it was, and so do any
number of such steps. A response is shown for one step only (log entry 2), and each step takes a gap and a
level off the inputs (log entry 1). -/
def Obligations.IdleHoldsItsState : Prop :=
  (∀ s : State, s.busy = false → s.offeredWord = none → s.rstAsserted = false →
    step s = .next { s with rstIn := s.rstIn.tail, cmdIn := s.cmdIn.tail, rsp := none }) ∧
  (∀ (k : Nat) (s : State), s.busy = false → (∀ offer ∈ s.cmdIn.take (k + 1), offer = none) →
    (∀ level ∈ s.rstIn.take (k + 1), level = false) →
    StepsTo (k + 1) s
      { s with rstIn := s.rstIn.drop (k + 1), cmdIn := s.cmdIn.drop (k + 1), rsp := none })

/-! ### NOP, SEED, LOAD -/

/-- R48: NOP responds with `RESULT` and writes nothing else. -/
def Obligations.NopOnlyResponds : Prop :=
  (∀ a b : Word, decode (packCommand 0x00#8 a b) = .command .nop) ∧
  (∀ s : State, s.fault = false →
    exec .nop s = .next { s with busy := false, draw := none, rsp := some ⟨.ok, s.result⟩ }) ∧
  (∀ s : State, s.fault = true →
    exec .nop s = .next { s with busy := false, draw := none, rsp := some ⟨.errFaulted, s.result⟩ })

/-- R49: SEED forces the increment odd, advances from zero, adds the seed and advances again. With its corner
cases: `INC` is odd; stream ids that differ only in bit 31 give one generator; the closed form; distinct
seeds of one stream give distinct states; the rule's three examples. -/
def Obligations.SeedBuildsTheGenerator : Prop :=
  (∀ a b : Word, decode (packCommand 0x01#8 a b) = .command (.seed a b)) ∧
  (∀ (s : State) (a b : Word), s.fault = false →
    exec (.seed a b) s = .next
      { s with
        state := 0xF13283AD#32 * ((0xF13283AD#32 * 0#32 + ((b <<< 1) ||| 1#32)) + a) + ((b <<< 1) ||| 1#32)
        inc := (b <<< 1) ||| 1#32
        busy := false, draw := none, rsp := some ⟨.ok, s.result⟩ }) ∧
  (∀ (s t : State) (a b : Word), s.fault = false → exec (.seed a b) s = .next t →
    t.inc.getLsbD 0 = true ∧ t.state = 0xF13283AD#32 * (t.inc + a) + t.inc ∧
      exec (.seed a (b ^^^ 0x80000000#32)) s = .next t) ∧
  (∀ (s t u : State) (a a' b : Word), s.fault = false → exec (.seed a b) s = .next t →
    exec (.seed a' b) s = .next u → t.state = u.state → a = a') ∧
  (∀ s : State, s.fault = false →
    (execAll [.seed 0#32 0#32] s).map (fun t => (t.state, t.inc)) = some (0xF13283AE#32, 0x00000001#32) ∧
    (execAll [.seed 0xFFFFFFFF#32 0x7FFFFFFF#32] s).map (fun t => (t.state, t.inc)) =
      some (0x1D9AF8A5#32, 0xFFFFFFFF#32) ∧
    (execAll [.seed 12345#32 0#32] s).map (fun t => (t.state, t.inc)) = some (0x1E224533#32, 0x00000001#32))

/-- R50: LOAD writes `STATE` and `INC` verbatim, an even increment too; a pair sampled by export while idle
restores the generator; with `INC = 2` the orbit of state 0 has length 2^31; the rule's example. -/
def Obligations.LoadImportsThePair : Prop :=
  (∀ a b : Word, decode (packCommand 0x02#8 a b) = .command (.load a b)) ∧
  (∀ (s : State) (a b : Word), s.fault = false →
    exec (.load a b) s = .next
      { s with state := a, inc := b, busy := false, draw := none, rsp := some ⟨.ok, s.result⟩ }) ∧
  (∀ s u : State, s.busy = false → u.fault = false →
    exec (importCommand s.exported) u = .next
      { u with
        state := s.state, inc := s.inc, busy := false, draw := none, rsp := some ⟨.ok, u.result⟩ }) ∧
  (∀ d : Nat, lcgSteps sourceParams 0#32 2#32 d = 0#32 ↔ 2 ^ 31 ∣ d) ∧
  (∀ s : State, s.fault = false →
    (execAll [.seed 7#32 3#32, .next] s).map (fun t => (t.state, t.inc)) = some (0xAE1CF776#32, 7#32) ∧
    (execAll [.load 0xAE1CF776#32 7#32, .next] s).map (·.result) = some 0xBA69FAE4#32)

/-- R37: a generator loaded from a pair exported while idle goes on as the exporting one would have gone on.
Whatever is then offered, with gaps and resets anywhere, `STATE`, `INC`, `FAULT` and `BUSY` are the same after
every number of steps, and so are the statuses of the responses. And where words that raise no fault are
followed by a NEXT or a BOUNDED, the responses from that command on are the same, data included; those
before it, one for each earlier word, may carry the `RESULT` that LOAD does not import. -/
def Obligations.LoadResumesTheExportedGenerator : Prop :=
  (∀ (s u u' : State) (offers : List (Option CmdWord)) (levels : List Bool) (k : Nat),
    s.busy = false → s.fault = false → u.fault = false → exec (importCommand s.exported) u = .next u' →
    (∃ a b : State, StepsTo k { u' with cmdIn := offers, rstIn := levels } a ∧
      StepsTo k { s with cmdIn := offers, rstIn := levels } b ∧
      a.state = b.state ∧ a.inc = b.inc ∧ a.fault = b.fault ∧ a.busy = b.busy) ∧
    (responsesOf k { u' with cmdIn := offers, rstIn := levels }).map (·.status) =
      (responsesOf k { s with cmdIn := offers, rstIn := levels }).map (·.status)) ∧
  (∀ (s u u' : State) (before after : List (Option CmdWord)) (w : CmdWord) (levels : List Bool) (k : Nat),
    s.busy = false → s.fault = false → u.fault = false → exec (importCommand s.exported) u = .next u' →
    (∀ v, some v ∈ before → ∃ i, decode v = .command i ∧ i ≠ .bounded 0#32) →
    (decode w = .command .next ∨ ∃ b, b ≠ 0#32 ∧ decode w = .command (.bounded b)) →
    (∀ level ∈ levels, level = false) →
    (responsesOf k { u' with cmdIn := before ++ some w :: after, rstIn := levels }).drop
        (before.countP Option.isSome) =
      (responsesOf k { s with cmdIn := before ++ some w :: after, rstIn := levels }).drop
        (before.countP Option.isSome))

/-! ### STEP and JUMP -/

/-- R53: STEP is one pure LCG advance, with its corner cases and its example. -/
def Obligations.StepAdvancesOnce : Prop :=
  (∀ a b : Word, decode (packCommand 0x03#8 a b) = .command .step) ∧
  (∀ s : State, s.fault = false →
    exec .step s = .next
      { s with
        state := 0xF13283AD#32 * s.state + s.inc
        busy := false, draw := none, rsp := some ⟨.ok, s.result⟩ }) ∧
  (∀ c : Word, lcgStep sourceParams 0#32 c = c ∧ lcgStep sourceParams 0xFFFFFFFF#32 c = c - 0xF13283AD#32) ∧
  lcgStep sourceParams 0x12345678#32 0x9ABCDEF1#32 = 0x8BCAB609#32

/-- R54: `d` steps are the affine map with multiplier `M^d` and increment `c * G(d)`, with the exact integer
sum `G(d)` reduced only afterwards. -/
def Obligations.IteratedStepClosedForm : Prop :=
  ∀ (P : Params) (s c : Word) (d : Nat),
    (lcgSteps P s c d).toNat =
      (P.multiplier.toNat ^ d * s.toNat + c.toNat * geometricSum P.multiplier.toNat d) % 2 ^ 32

/-- R55: the loop of at most 32 iterations gives the result of R54, for every multiplier. -/
def Obligations.JumpLoopIsIteratedStep : Prop :=
  ∀ (P : Params) (s c d : Word), advance P s c d = lcgSteps P s c d.toNat

/-- R56: JUMP leaves the state that `a` steps leave, with no output word; its corner cases and its example. -/
def Obligations.JumpSkipsSteps : Prop :=
  (∀ a b : Word, decode (packCommand 0x05#8 a b) = .command (.jump a)) ∧
  (∀ (s : State) (a : Word), s.fault = false →
    exec (.jump a) s = .next
      { s with
        state := lcgSteps sourceParams s.state s.inc a.toNat
        busy := false, draw := none, rsp := some ⟨.ok, s.result⟩ }) ∧
  (∀ s : State, s.fault = false →
    (execAll [.jump 0#32] s).map (·.state) = some s.state ∧ exec (.jump 1#32) s = exec .step s ∧
    (execAll [.step, .jump 0xFFFFFFFF#32] s).map (·.state) = some s.state ∧
    (execAll [.load 0#32 1#32, .jump 0x80000000#32] s).map (·.state) = some 0x80000000#32 ∧
    (execAll [.load 0xF13283AE#32 1#32, .jump 5#32] s).map (·.state) = some 0x6D81F113#32)

/-- R57: the three laws of JUMP, for every `STATE` and every `INC`, odd or even. -/
def Obligations.JumpLaws : Prop :=
  ∀ (s : State), s.fault = false →
    (∀ a b : Word, (execAll [.jump a, .jump b] s).map (·.state) = (execAll [.jump (a + b)] s).map (·.state)) ∧
    (∀ d : Word,
      (execAll [.jump d] s).map (·.state) = (execAll (List.replicate d.toNat .step) s).map (·.state)) ∧
    (∀ k : Nat, k ≤ 4294967295 →
      (execAll (List.replicate k .step ++ [.jump (backwardCount k)]) s).map (·.state) = some s.state ∧
      (execAll [.jump (BitVec.ofNat 32 k), .jump (backwardCount k)] s).map (·.state) = some s.state)

/-- R18, R58: with an odd increment the orbit of `step` has length exactly 2^32: it visits every value, and
two numbers of steps agree exactly when they agree modulo 2^32. -/
def Obligations.OddIncrementHasFullPeriod : Prop :=
  ∀ s c : Word, c.getLsbD 0 = true →
    (∀ v : Word, ∃ d : Nat, d < 2 ^ 32 ∧ lcgSteps sourceParams s c d = v) ∧
    (∀ d d' : Nat, lcgSteps sourceParams s c d = lcgSteps sourceParams s c d' ↔ d % 2 ^ 32 = d' % 2 ^ 32)

/-! ### NEXT -/

/-- R59, R60, R61, R62: NEXT permutes `STATE` by the selected xorshift, takes the output from the permuted
value and advances from it. -/
def Obligations.NextPermutesOutputsAndAdvances : Prop :=
  (∀ a b : Word, decode (packCommand 0x04#8 a b) = .command .next) ∧
  (∀ (s : State) (p : Word), s.fault = false →
    p = s.state ^^^ (277803737#32 * (s.state >>> (4 + (s.state >>> 28).toNat))) →
    exec .next s = .next
      { s with
        state := 0xF13283AD#32 * p + s.inc
        result := p ^^^ (p >>> 22)
        busy := false, draw := none, rsp := some ⟨.ok, p ^^^ (p >>> 22)⟩ }) ∧
  (∀ s : Word,
    perm sourceParams s = s ^^^ (277803737#32 * (s >>> (4 + (s.extractLsb' 28 4).toNat))) ∧
      4 ≤ permShift sourceParams s ∧ permShift sourceParams s ≤ 19) ∧
  (∀ p : Word, outWord sourceParams p = p ^^^ (p >>> 22))

/-- R62 (a): after one NEXT, `STATE` is `step(old STATE, INC)` exactly where `perm` fixes the old state. -/
def Obligations.NextIsEntangled : Prop :=
  ∀ s t u : State, s.fault = false → exec .next s = .next t → exec .step s = .next u →
    (t.state = u.state ↔ perm sourceParams s.state = s.state)

/-- R63 (d): the output function is a bijection on 32-bit words. -/
def Obligations.OutputIsBijective : Prop :=
  Function.Bijective (outWord sourceParams)

/-- R63 (a), (c), R68: `perm` is not injective, the two fixed points of NEXT for `INC = 1` with their outputs
and the seeds that reach them, and the bounds 82231 and 0x80000001 that reject them. -/
def Obligations.FixedPointsOfNext : Prop :=
  perm sourceParams 0xA676AE69#32 = perm sourceParams 0xFADE4980#32 ∧
  nextTransition sourceParams 0x812D3F80#32 1#32 = 0x812D3F80#32 ∧
  drawWord sourceParams 0x812D3F80#32 = 0xC8805679#32 ∧
  nextTransition sourceParams 0x8B3C7CAE#32 1#32 = 0x8B3C7CAE#32 ∧
  drawWord sourceParams 0x8B3C7CAE#32 = 0xE288FE8B#32 ∧
  drawRejected 82231#32 0xC8805679#32 = true ∧ drawRejected 0x80000001#32 0xE288FE8B#32 = true ∧
  (∀ s : State, s.fault = false →
    (execAll [.seed 3363853658#32 0#32] s).map (fun t => (t.state, t.inc)) = some (0x812D3F80#32, 1#32) ∧
    (execAll [.seed 3800628480#32 0#32] s).map (fun t => (t.state, t.inc)) = some (0x8B3C7CAE#32, 1#32))

/-! ### BOUNDED -/

/-- R64: the rejection threshold and its corner values. -/
def Obligations.ThresholdIsTwoPow32ModBound : Prop :=
  ∀ b : Word, b ≠ 0#32 →
    (threshold b).toNat = 2 ^ 32 % b.toNat ∧ threshold b < b ∧
    ((∃ k : Nat, b.toNat = 2 ^ k) → threshold b = 0#32) ∧
    (2 ^ 31 < b.toNat → (threshold b).toNat = 2 ^ 32 - b.toNat)

/-- R65, R46, R98: the step that accepts BOUNDED with a non-zero bound takes the first draw: the low half of
the exact product `bound * x` below `2^32 mod bound` leaves the command in progress, any other draw
completes it with the high half. That acceptance and first draw are one step is log entry 4; a rejected
draw also moves `busyTick`, a field of the model's own (log entry 3). -/
def Obligations.BoundedTakesTheFirstDraw : Prop :=
  (∀ a b : Word, decode (packCommand 0x06#8 a b) = .command (.bounded a)) ∧
  (∀ (s : State) (b x : Word), s.fault = false → b ≠ 0#32 → x = drawWord sourceParams s.state →
    (2 ^ 32 % b.toNat ≤ b.toNat * x.toNat % 2 ^ 32 →
      exec (.bounded b) s = .next
        { s with
          state := nextTransition sourceParams s.state s.inc
          result := BitVec.ofNat 32 (b.toNat * x.toNat / 2 ^ 32)
          busy := false, draw := none
          rsp := some ⟨.ok, BitVec.ofNat 32 (b.toNat * x.toNat / 2 ^ 32)⟩ }) ∧
    (b.toNat * x.toNat % 2 ^ 32 < 2 ^ 32 % b.toNat →
      exec (.bounded b) s = .next
        { s with
          state := nextTransition sourceParams s.state s.inc
          busy := true, draw := some ⟨b, x, 1⟩, rsp := none
          busyTick := s.busyTick + 1 }))

/-- R65, R95: each step while a BOUNDED is in progress is one more draw, by the same rule. Of the inputs the step
takes the level of `rst` and at most a gap in the offers; an offered word stays (log entry 1). A rejected
draw also moves `busyTick`, a field of the model's own (log entry 3). -/
def Obligations.BoundedDrawsAgainWhileBusy : Prop :=
  ∀ (s : State) (b x x0 : Word) (n : Nat), s.rstAsserted = false → s.busy = true → s.draw = some ⟨b, x0, n⟩ →
    b ≠ 0#32 → x = drawWord sourceParams s.state →
    (2 ^ 32 % b.toNat ≤ b.toNat * x.toNat % 2 ^ 32 →
      step s = .next
        { s with
          rstIn := s.rstIn.tail
          cmdIn := if s.cmdIn.head? = some none then s.cmdIn.tail else s.cmdIn
          state := nextTransition sourceParams s.state s.inc
          result := BitVec.ofNat 32 (b.toNat * x.toNat / 2 ^ 32)
          busy := false, draw := none
          rsp := some ⟨.ok, BitVec.ofNat 32 (b.toNat * x.toNat / 2 ^ 32)⟩ }) ∧
    (b.toNat * x.toNat % 2 ^ 32 < 2 ^ 32 % b.toNat →
      step s = .next
        { s with
          rstIn := s.rstIn.tail
          cmdIn := if s.cmdIn.head? = some none then s.cmdIn.tail else s.cmdIn
          state := nextTransition sourceParams s.state s.inc
          busy := true, draw := some ⟨b, x, n + 1⟩, rsp := none
          busyTick := s.busyTick + 1 })

/-- R66: the test `lo < S_BOUND` never changes which draw is accepted: the single test against the threshold
rejects the same draws. -/
def Obligations.SingleTestRejectsTheSameDraws : Prop :=
  ∀ b x : Word, b ≠ 0#32 → (drawRejected b x = true ↔ drawLow b x < threshold b)

/-- R66, R67: BOUNDED accepts the first draw whose low half reaches the threshold. If draws 0 to n-1 are
rejected and draw n is not, the command completes after n+1 steps with one response, `STATE` is n+1 NEXT
transitions on, and the result is the high half of draw n and less than the bound. -/
def Obligations.BoundedAcceptsTheFirstGoodDraw : Prop :=
  ∀ (s : State) (w : CmdWord) (b : Word) (n : Nat),
    Accepts s w → RstLow s → s.fault = false → decode w = .command (.bounded b) → b ≠ 0#32 →
    (∀ j : Nat, j < n →
      drawLow b (drawWord sourceParams (nextTransitions sourceParams s.state s.inc j)) < threshold b) →
    threshold b ≤ drawLow b (drawWord sourceParams (nextTransitions sourceParams s.state s.inc n)) →
    ∃ t : State, StepsTo (n + 1) s t ∧
      t.state = nextTransitions sourceParams s.state s.inc (n + 1) ∧ t.inc = s.inc ∧
      t.result = drawHigh b (drawWord sourceParams (nextTransitions sourceParams s.state s.inc n)) ∧
      t.result < b ∧ t.busy = false ∧ t.fault = false ∧ responsesOf (n + 1) s = [⟨.ok, t.result⟩]

/-- R67 (b): the result of a completed BOUNDED is strictly less than its bound. -/
def Obligations.BoundedResultBelowBound : Prop :=
  (∀ (s t : State) (b : Word), s.fault = false → b ≠ 0#32 → exec (.bounded b) s = .next t → t.busy = false →
    t.result < b) ∧
  (∀ (s t : State) (regs : BoundedRegs), s.rstAsserted = false → s.busy = true → s.draw = some regs →
    regs.sBound ≠ 0#32 → step s = .next t → t.busy = false → t.result < regs.sBound)

/-- R65's corner cases: a bound that is a power of two takes exactly one draw, whose result is the draw's
high bits (0 for the bound 1); with the bound 0xFFFFFFFF only the draw 0 is rejected. -/
def Obligations.BoundedByAPowerOfTwo : Prop :=
  (∀ (s : State) (b : Word) (k : Nat), s.fault = false → k < 32 → b.toNat = 2 ^ k →
    exec (.bounded b) s = .next
      { s with
        state := nextTransition sourceParams s.state s.inc
        result := drawWord sourceParams s.state >>> (32 - k)
        busy := false, draw := none
        rsp := some ⟨.ok, drawWord sourceParams s.state >>> (32 - k)⟩ }) ∧
  (∀ x : Word, drawRejected 0xFFFFFFFF#32 x = true ↔ x = 0#32)

/-- R68: at a fixed point of NEXT whose output is rejected, BOUNDED never responds: after every number of
steps it is still in progress, `STATE` is the fixed point, and the run has no observation (R99). -/
def Obligations.BoundedHangsAtARejectedFixedPoint : Prop :=
  ∀ (s : State) (w : CmdWord) (b : Word) (k : Nat),
    Accepts s w → RstLow s → s.fault = false → decode w = .command (.bounded b) → b ≠ 0#32 →
    nextTransition sourceParams s.state s.inc = s.state →
    drawRejected b (drawWord sourceParams s.state) = true →
    ∃ t : State, StepsTo (k + 1) s t ∧ t.busy = true ∧ t.state = s.state ∧ t.statusO.getLsbD 0 = true ∧
      responsesOf (k + 1) s = [] ∧ observeFrom (k + 1) [] s = none

/-! ### Faults -/

/-- R79: BOUND_ZERO is raised by BOUNDED with `a = 0`, before any draw, and by nothing else. -/
def Obligations.OnlyAZeroBoundRaisesBoundZero : Prop :=
  (∀ s : State, s.fault = false →
    exec (.bounded 0#32) s = .next
      { s with
        fault := true, fcode := 1#2, busy := false, draw := none
        rsp := some ⟨.errBoundZero, s.result⟩ }) ∧
  (∀ s t : State, s.fault = false → step s = .next t → t.fault = true → t.fcode = 1#2 →
    ∃ w, Accepts s w ∧ decode w = .command (.bounded 0#32))

/-- R78, R82, R84: faults are precise. The step that sets `FAULT` accepts a reserved opcode or a BOUNDED with a
zero bound, and leaves everything else as it was but the flags, the response and the inputs taken. -/
def Obligations.FaultsArePrecise : Prop :=
  ∀ s t : State, s.fault = false → step s = .next t → t.fault = true →
    ∃ (w : CmdWord) (code : FaultCode), Accepts s w ∧
      ((0x07 ≤ (opField w).toNat ∧ code = .illegalOp) ∨
        ((opField w).toNat = 0x06 ∧ aField w = 0#32 ∧ code = .boundZero)) ∧
      t = { s with
            rstIn := s.rstIn.tail, cmdIn := s.cmdIn.tail
            fault := true, fcode := code.bits, busy := false, draw := none
            rsp := some ⟨code.status, s.result⟩ }

/-- R78, R81, R85: the faulted state is left by reset only. As long as `rst` is low, after every number of
steps the registers are what they were, and every response is the refusal. -/
def Obligations.FaultIsStickyUntilReset : Prop :=
  ∀ (k : Nat) (s : State), Consistent s → s.fault = true → RstLow s →
    ∃ t : State, StepsTo k s t ∧ t.fault = true ∧ t.fcode = s.fcode ∧ t.state = s.state ∧ t.inc = s.inc ∧
      t.result = s.result ∧ t.busy = false ∧ ∀ r ∈ responsesOf k s, r = ⟨.errFaulted, s.result⟩

/-! ### Reset -/

/-- R27: the values after reset. -/
def Obligations.ResetValues : Prop :=
  State.reset.state = 0xF13283AE#32 ∧ State.reset.inc = 0x00000001#32 ∧ State.reset.result = 0#32 ∧
  State.reset.fault = false ∧ State.reset.fcode = 0#2 ∧ State.reset.busy = false ∧ State.reset.draw = none

/-- R92, R93: a step with `rst` asserted leaves the reset values, whatever the state and whatever was in
progress, with no response and with what is offered not accepted; only such a step clears `FAULT`; and `STATE` and
`INC` are then what `seed 0, 0` produces. That an offered word stays offered, a gap passes and `busyTick` is
kept is the model's reading (log entry 10, DEDUCED). -/
def Obligations.ResetFromEveryState : Prop :=
  (∀ s : State, s.rstAsserted = true →
    step s = .next
      { state := 0xF13283AE#32, inc := 0x00000001#32, result := 0#32
        fault := false, fcode := 0#2, busy := false, draw := none, rsp := none
        cmdIn := if s.cmdIn.head? = some none then s.cmdIn.tail else s.cmdIn
        rstIn := s.rstIn.tail, busyTick := s.busyTick }) ∧
  (∀ s t : State, s.fault = true → step s = .next t → t.fault = false → s.rstAsserted = true) ∧
  (∀ s t : State, s.rstAsserted = true → step s = .next t → ∀ u : State, u.fault = false →
    (execAll [.seed 0#32 0#32] u).map (fun v => (v.state, v.inc)) = some (t.state, t.inc))

/-! ### Ports -/

/-- R20, R22, R38, R43: the layout of `status_o`, always valid; the data ports while `BUSY = 0`; and the response
port, which shows the response of the step, with the four values of `rsp_status`. -/
def Obligations.PortsShowTheRegisters : Prop :=
  (∀ s : State,
    s.statusO.getLsbD 0 = s.busy ∧ s.statusO.getLsbD 1 = s.fault ∧ s.statusO.extractLsb' 2 2 = s.fcode ∧
      s.statusO.extractLsb' 4 4 = 0#4) ∧
  (∀ s : State, s.busy = false → s.stateO = s.state ∧ s.incO = s.inc ∧ s.resultO = s.result) ∧
  (∀ s : State, s.rsp = none → s.rspValid = false) ∧
  (∀ (s : State) (data : Word),
    (s.rsp = some ⟨.ok, data⟩ →
      s.rspValid = true ∧ s.rspStatus = some 0#2 ∧ s.rspData = some data) ∧
    (s.rsp = some ⟨.errBoundZero, data⟩ →
      s.rspValid = true ∧ s.rspStatus = some 1#2 ∧ s.rspData = some data) ∧
    (s.rsp = some ⟨.errIllegalOp, data⟩ →
      s.rspValid = true ∧ s.rspStatus = some 2#2 ∧ s.rspData = some data) ∧
    (s.rsp = some ⟨.errFaulted, data⟩ →
      s.rspValid = true ∧ s.rspStatus = some 3#2 ∧ s.rspData = some data))

/-! ### Whole-machine rules -/

/-- R14, R19, R20, R24, R47: every step from a consistent state leaves a consistent state. -/
def Obligations.ConsistencyIsKept : Prop :=
  ∀ s t : State, Consistent s → step s = .next t → Consistent t

/-- The state after reset is consistent. -/
def Obligations.ResetIsConsistent : Prop :=
  Consistent State.reset

/-- R82: from a consistent state every step goes on: no fault of the model and no refusal. -/
def Obligations.ConsistentStatesGoOn : Prop :=
  ∀ s : State, Consistent s → Goes s

/-- R17: without reset, only an accepted SEED or LOAD changes `INC`. -/
def Obligations.OnlySeedAndLoadWriteInc : Prop :=
  ∀ s t : State, step s = .next t → t.inc ≠ s.inc →
    s.rstAsserted = true ∨
    ∃ (w : CmdWord) (a b : Word), Accepts s w ∧ s.fault = false ∧
      (decode w = .command (.seed a b) ∨ decode w = .command (.load a b))

/-- R19: without reset, only an accepted NEXT and a completed BOUNDED change `RESULT`, and every response
carries `RESULT` as the command leaves it. -/
def Obligations.OnlyNextAndBoundedWriteResult : Prop :=
  (∀ s t : State, step s = .next t → t.result ≠ s.result →
    s.rstAsserted = true ∨
    (t.rsp = some ⟨.ok, t.result⟩ ∧
      ((∃ w, Accepts s w ∧ s.fault = false ∧
          (decode w = .command .next ∨ ∃ b, b ≠ 0#32 ∧ decode w = .command (.bounded b))) ∨
        (s.busy = true ∧ s.draw.isSome = true)))) ∧
  (∀ (s t : State) (r : Response), step s = .next t → t.rsp = some r → r.data = t.result)

/-- The frame of every command: NOP, STEP, JUMP, NEXT and BOUNDED keep `INC`; NOP keeps `STATE`; NOP, SEED,
LOAD, STEP and JUMP keep `RESULT`; all but BOUNDED complete; all but BOUNDED 0 keep `FAULT` and `FCODE`; none
touches the inputs; and only a BOUNDED left in progress moves the model's own tick. -/
def Obligations.FrameOfEveryCommand : Prop :=
  ∀ (i : Instr) (s t : State), s.fault = false → exec i s = .next t →
    t.cmdIn = s.cmdIn ∧ t.rstIn = s.rstIn ∧ (t.busyTick ≠ s.busyTick → ∃ b, i = .bounded b ∧ t.busy = true) ∧
    ((∀ a b, i ≠ .seed a b) → (∀ a b, i ≠ .load a b) → t.inc = s.inc) ∧
    (i = .nop → t.state = s.state) ∧
    (i ≠ .next → (∀ b, i ≠ .bounded b) → t.result = s.result) ∧
    ((∀ b, i ≠ .bounded b) → t.fault = s.fault ∧ t.fcode = s.fcode ∧ t.busy = false ∧ t.draw = none) ∧
    (i ≠ .bounded 0#32 → t.fault = s.fault ∧ t.fcode = s.fcode)

/-- R14, R67 (c): `RESULT` influences nothing but itself: two states that differ in `RESULT` and the data of
the shown response only stay so for every number of steps. -/
def Obligations.ResultInfluencesNothingElse : Prop :=
  ∀ (k : Nat) (s t s' : State), SameButResult s t → StepsTo k s s' →
    ∃ t' : State, StepsTo k t t' ∧ SameButResult s' t'

/-! ### The host's side -/

/-- R23, R30: the exported pair survives a serialisation in either byte order. The bytes are those of the state
and then those of the increment: each word's most significant byte first in the big-endian order, its
least significant byte first in the little-endian one. -/
def Obligations.SerialisationRoundTrip : Prop :=
  (∀ (order : ByteOrder) (pair : Word × Word), deserialise order (serialise order pair) = some pair) ∧
  (∀ state inc : Word,
    (serialise .big (state, inc)).map (·.toNat) =
      [state.toNat / 2 ^ 24, state.toNat / 2 ^ 16 % 2 ^ 8, state.toNat / 2 ^ 8 % 2 ^ 8, state.toNat % 2 ^ 8,
        inc.toNat / 2 ^ 24, inc.toNat / 2 ^ 16 % 2 ^ 8, inc.toNat / 2 ^ 8 % 2 ^ 8, inc.toNat % 2 ^ 8] ∧
    (serialise .little (state, inc)).map (·.toNat) =
      [state.toNat % 2 ^ 8, state.toNat / 2 ^ 8 % 2 ^ 8, state.toNat / 2 ^ 16 % 2 ^ 8, state.toNat / 2 ^ 24,
        inc.toNat % 2 ^ 8, inc.toNat / 2 ^ 8 % 2 ^ 8, inc.toNat / 2 ^ 16 % 2 ^ 8, inc.toNat / 2 ^ 24])

/-- R70, R71, R72: what a host makes of the raw words of one NEXT, and of two. -/
def Obligations.HostIntegersFromRawWords : Prop :=
  ∀ (s : State) (x y : Word), s.busy = false → s.fault = false → x = drawWord sourceParams s.state →
    y = drawWord sourceParams (nextTransition sourceParams s.state s.inc) →
    (∃ t, hostNextBool s = .done (x.slt 0#32) t ∧ t.state = nextTransition sourceParams s.state s.inc) ∧
    (∃ t, hostNextU8 s = .done (BitVec.ofNat 8 (x.toNat / 2 ^ 24)) t ∧
      t.state = nextTransition sourceParams s.state s.inc) ∧
    (∃ t, hostNextU16 s = .done (BitVec.ofNat 16 (x.toNat / 2 ^ 16)) t ∧
      t.state = nextTransition sourceParams s.state s.inc) ∧
    (∃ t, hostNextU64 s = .done (BitVec.ofNat 64 (y.toNat * 2 ^ 32 + x.toNat)) t ∧
      t.state = nextTransitions sourceParams s.state s.inc 2)

/-- R73, R74, R77: a picked index is below the length and below 2^32 - 1; an empty sequence faults with
BOUND_ZERO. -/
def Obligations.PickedIndexIsInRange : Prop :=
  (∀ (patience n : Nat) (s t : State) (index : Word), s.busy = false → s.fault = false →
    hostPickIndex patience n s = .done index t → index.toNat < n ∧ index.toNat < 4294967295) ∧
  (∀ (patience : Nat) (s : State), s.busy = false → s.fault = false →
    ∃ t, hostPickIndex (patience + 1) 0 s = .failed .errBoundZero t ∧ t.fault = true ∧ t.fcode = 1#2)

/-- R75: a shuffle permutes its sequence, and one of at most 2^32 - 1 elements on an idle block without a
fault never fails; a longer one is refused. -/
def Obligations.ShufflePermutes : Prop :=
  (∀ (α : Type) (patience : Nat) (xs ys : List α) (s t : State), hostShuffle patience xs s = .done ys t → ys.Perm xs) ∧
  (∀ (α : Type) (patience : Nat) (xs : List α) (s : State), s.busy = false → s.fault = false →
    (xs.length ≤ 4294967295 → ∀ status t, hostShuffle patience xs s ≠ .failed status t) ∧
    (4294967295 < xs.length → hostShuffle patience xs s = .refused .shuffleTooLong))
end

