-- ==== Sys2Proof/Laws/Generator.lean ====
section
/-! SUPPORT. The pure functions in terms of natural numbers, one lemma per function. -/

namespace Sys2Proof.Machine

/-- The exact product of a draw fits in 64 bits. -/
theorem drawProduct_toNat (b x : Word) : (drawProduct b x).toNat = b.toNat * x.toNat := by
  have h : b.toNat * x.toNat < 2 ^ 64 := by nlinarith [b.isLt, x.isLt]
  simp [drawProduct]
  omega

theorem drawLow_toNat (b x : Word) : (drawLow b x).toNat = b.toNat * x.toNat % 2 ^ 32 := by
  simp [drawLow, BitVec.extractLsb'_toNat, drawProduct_toNat]

theorem drawHigh_toNat (b x : Word) : (drawHigh b x).toNat = b.toNat * x.toNat / 2 ^ 32 := by
  have h : b.toNat * x.toNat < 2 ^ 64 := by nlinarith [b.isLt, x.isLt]
  simp [drawHigh, BitVec.extractLsb'_toNat, drawProduct_toNat, Nat.shiftRight_eq_div_pow]
  omega

/-- Steps add up: `m + n` steps are `n` steps after `m`. -/
theorem lcgSteps_add (P : Params) (s c : Word) (m n : Nat) :
    lcgSteps P s c (m + n) = lcgSteps P (lcgSteps P s c m) c n := by
  induction n with
  | zero => rfl
  | succ n ih => rw [← Nat.add_assoc]; simp only [lcgSteps]; rw [ih]

/-- The first of `n + 1` NEXT transitions can be taken first. -/
theorem nextTransitions_succ (P : Params) (s c : Word) (n : Nat) :
    nextTransitions P s c (n + 1) = nextTransitions P (nextTransition P s c) c n := by
  induction n with
  | zero => rfl
  | succ n ih => simp only [nextTransitions] at ih ⊢; rw [ih]

/-- `m * G(d) + 1 = G(d + 1)`: the exact sum of R54 needs no division. -/
theorem geometricSum_succ (m d : Nat) : geometricSum m (d + 1) = m * geometricSum m d + 1 := by
  induction d with
  | zero => simp [geometricSum]
  | succ d ih =>
    simp only [geometricSum, pow_succ] at ih ⊢
    nlinarith [ih]

end Sys2Proof.Machine
end

