-- ==== Sys2Proof/Laws/State.lean ====
section
/-! SUPPORT. One lemma per field and per update of the state, true by unfolding, so that no later proof unfolds
a record update. -/

namespace Sys2Proof.Machine

/-! ### `setState` -/

@[simp] theorem setState_state (s : State) (v : Word) : (s.setState v).state = v := rfl
@[simp] theorem setState_inc (s : State) (v : Word) : (s.setState v).inc = s.inc := rfl
@[simp] theorem setState_result (s : State) (v : Word) : (s.setState v).result = s.result := rfl
@[simp] theorem setState_fault (s : State) (v : Word) : (s.setState v).fault = s.fault := rfl
@[simp] theorem setState_fcode (s : State) (v : Word) : (s.setState v).fcode = s.fcode := rfl
@[simp] theorem setState_busy (s : State) (v : Word) : (s.setState v).busy = s.busy := rfl
@[simp] theorem setState_draw (s : State) (v : Word) : (s.setState v).draw = s.draw := rfl
@[simp] theorem setState_rsp (s : State) (v : Word) : (s.setState v).rsp = s.rsp := rfl
@[simp] theorem setState_cmdIn (s : State) (v : Word) : (s.setState v).cmdIn = s.cmdIn := rfl
@[simp] theorem setState_rstIn (s : State) (v : Word) : (s.setState v).rstIn = s.rstIn := rfl
@[simp] theorem setState_busyTick (s : State) (v : Word) : (s.setState v).busyTick = s.busyTick := rfl

/-! ### `setInc` -/

@[simp] theorem setInc_state (s : State) (v : Word) : (s.setInc v).state = s.state := rfl
@[simp] theorem setInc_inc (s : State) (v : Word) : (s.setInc v).inc = v := rfl
@[simp] theorem setInc_result (s : State) (v : Word) : (s.setInc v).result = s.result := rfl
@[simp] theorem setInc_fault (s : State) (v : Word) : (s.setInc v).fault = s.fault := rfl
@[simp] theorem setInc_fcode (s : State) (v : Word) : (s.setInc v).fcode = s.fcode := rfl
@[simp] theorem setInc_busy (s : State) (v : Word) : (s.setInc v).busy = s.busy := rfl
@[simp] theorem setInc_draw (s : State) (v : Word) : (s.setInc v).draw = s.draw := rfl
@[simp] theorem setInc_rsp (s : State) (v : Word) : (s.setInc v).rsp = s.rsp := rfl
@[simp] theorem setInc_cmdIn (s : State) (v : Word) : (s.setInc v).cmdIn = s.cmdIn := rfl
@[simp] theorem setInc_rstIn (s : State) (v : Word) : (s.setInc v).rstIn = s.rstIn := rfl
@[simp] theorem setInc_busyTick (s : State) (v : Word) : (s.setInc v).busyTick = s.busyTick := rfl

/-! ### `setResult` -/

@[simp] theorem setResult_state (s : State) (v : Word) : (s.setResult v).state = s.state := rfl
@[simp] theorem setResult_inc (s : State) (v : Word) : (s.setResult v).inc = s.inc := rfl
@[simp] theorem setResult_result (s : State) (v : Word) : (s.setResult v).result = v := rfl
@[simp] theorem setResult_fault (s : State) (v : Word) : (s.setResult v).fault = s.fault := rfl
@[simp] theorem setResult_fcode (s : State) (v : Word) : (s.setResult v).fcode = s.fcode := rfl
@[simp] theorem setResult_busy (s : State) (v : Word) : (s.setResult v).busy = s.busy := rfl
@[simp] theorem setResult_draw (s : State) (v : Word) : (s.setResult v).draw = s.draw := rfl
@[simp] theorem setResult_rsp (s : State) (v : Word) : (s.setResult v).rsp = s.rsp := rfl
@[simp] theorem setResult_cmdIn (s : State) (v : Word) : (s.setResult v).cmdIn = s.cmdIn := rfl
@[simp] theorem setResult_rstIn (s : State) (v : Word) : (s.setResult v).rstIn = s.rstIn := rfl
@[simp] theorem setResult_busyTick (s : State) (v : Word) : (s.setResult v).busyTick = s.busyTick := rfl

/-! ### `respond` -/

@[simp] theorem respond_state (s : State) (st : RspStatus) : (s.respond st).state = s.state := rfl
@[simp] theorem respond_inc (s : State) (st : RspStatus) : (s.respond st).inc = s.inc := rfl
@[simp] theorem respond_result (s : State) (st : RspStatus) : (s.respond st).result = s.result := rfl
@[simp] theorem respond_fault (s : State) (st : RspStatus) : (s.respond st).fault = s.fault := rfl
@[simp] theorem respond_fcode (s : State) (st : RspStatus) : (s.respond st).fcode = s.fcode := rfl
@[simp] theorem respond_busy (s : State) (st : RspStatus) : (s.respond st).busy = false := rfl
@[simp] theorem respond_draw (s : State) (st : RspStatus) : (s.respond st).draw = none := rfl
@[simp] theorem respond_rsp (s : State) (st : RspStatus) : (s.respond st).rsp = some ⟨st, s.result⟩ := rfl
@[simp] theorem respond_cmdIn (s : State) (st : RspStatus) : (s.respond st).cmdIn = s.cmdIn := rfl
@[simp] theorem respond_rstIn (s : State) (st : RspStatus) : (s.respond st).rstIn = s.rstIn := rfl
@[simp] theorem respond_busyTick (s : State) (st : RspStatus) : (s.respond st).busyTick = s.busyTick := rfl

/-! ### `raiseFault` -/

@[simp] theorem raiseFault_state (s : State) (c : FaultCode) : (s.raiseFault c).state = s.state := rfl
@[simp] theorem raiseFault_inc (s : State) (c : FaultCode) : (s.raiseFault c).inc = s.inc := rfl
@[simp] theorem raiseFault_result (s : State) (c : FaultCode) : (s.raiseFault c).result = s.result := rfl
@[simp] theorem raiseFault_fault (s : State) (c : FaultCode) : (s.raiseFault c).fault = true := rfl
@[simp] theorem raiseFault_fcode (s : State) (c : FaultCode) : (s.raiseFault c).fcode = c.bits := rfl
@[simp] theorem raiseFault_busy (s : State) (c : FaultCode) : (s.raiseFault c).busy = false := rfl
@[simp] theorem raiseFault_draw (s : State) (c : FaultCode) : (s.raiseFault c).draw = none := rfl
@[simp] theorem raiseFault_rsp (s : State) (c : FaultCode) : (s.raiseFault c).rsp = some ⟨c.status, s.result⟩ := rfl
@[simp] theorem raiseFault_cmdIn (s : State) (c : FaultCode) : (s.raiseFault c).cmdIn = s.cmdIn := rfl
@[simp] theorem raiseFault_rstIn (s : State) (c : FaultCode) : (s.raiseFault c).rstIn = s.rstIn := rfl
@[simp] theorem raiseFault_busyTick (s : State) (c : FaultCode) : (s.raiseFault c).busyTick = s.busyTick := rfl

/-! ### `refuseFaulted` -/

@[simp] theorem refuseFaulted_state (s : State) : (s.refuseFaulted).state = s.state := rfl
@[simp] theorem refuseFaulted_inc (s : State) : (s.refuseFaulted).inc = s.inc := rfl
@[simp] theorem refuseFaulted_result (s : State) : (s.refuseFaulted).result = s.result := rfl
@[simp] theorem refuseFaulted_fault (s : State) : (s.refuseFaulted).fault = s.fault := rfl
@[simp] theorem refuseFaulted_fcode (s : State) : (s.refuseFaulted).fcode = s.fcode := rfl
@[simp] theorem refuseFaulted_busy (s : State) : (s.refuseFaulted).busy = false := rfl
@[simp] theorem refuseFaulted_draw (s : State) : (s.refuseFaulted).draw = none := rfl
@[simp] theorem refuseFaulted_rsp (s : State) : (s.refuseFaulted).rsp = some ⟨.errFaulted, s.result⟩ := rfl
@[simp] theorem refuseFaulted_cmdIn (s : State) : (s.refuseFaulted).cmdIn = s.cmdIn := rfl
@[simp] theorem refuseFaulted_rstIn (s : State) : (s.refuseFaulted).rstIn = s.rstIn := rfl
@[simp] theorem refuseFaulted_busyTick (s : State) : (s.refuseFaulted).busyTick = s.busyTick := rfl

/-! ### `applyReset` -/

@[simp] theorem applyReset_state (s : State) : (s.applyReset).state = 0xF13283AE#32 := rfl
@[simp] theorem applyReset_inc (s : State) : (s.applyReset).inc = 0x00000001#32 := rfl
@[simp] theorem applyReset_result (s : State) : (s.applyReset).result = 0x00000000#32 := rfl
@[simp] theorem applyReset_fault (s : State) : (s.applyReset).fault = false := rfl
@[simp] theorem applyReset_fcode (s : State) : (s.applyReset).fcode = 0#2 := rfl
@[simp] theorem applyReset_busy (s : State) : (s.applyReset).busy = false := rfl
@[simp] theorem applyReset_draw (s : State) : (s.applyReset).draw = none := rfl
@[simp] theorem applyReset_rsp (s : State) : (s.applyReset).rsp = none := rfl
@[simp] theorem applyReset_cmdIn (s : State) : (s.applyReset).cmdIn = s.cmdIn := rfl
@[simp] theorem applyReset_rstIn (s : State) : (s.applyReset).rstIn = s.rstIn := rfl
@[simp] theorem applyReset_busyTick (s : State) : (s.applyReset).busyTick = s.busyTick := rfl

/-! ### `holdDraw` -/

@[simp] theorem holdDraw_state (s : State) (r : BoundedRegs) : (s.holdDraw r).state = s.state := rfl
@[simp] theorem holdDraw_inc (s : State) (r : BoundedRegs) : (s.holdDraw r).inc = s.inc := rfl
@[simp] theorem holdDraw_result (s : State) (r : BoundedRegs) : (s.holdDraw r).result = s.result := rfl
@[simp] theorem holdDraw_fault (s : State) (r : BoundedRegs) : (s.holdDraw r).fault = s.fault := rfl
@[simp] theorem holdDraw_fcode (s : State) (r : BoundedRegs) : (s.holdDraw r).fcode = s.fcode := rfl
@[simp] theorem holdDraw_busy (s : State) (r : BoundedRegs) : (s.holdDraw r).busy = true := rfl
@[simp] theorem holdDraw_draw (s : State) (r : BoundedRegs) : (s.holdDraw r).draw = some r := rfl
@[simp] theorem holdDraw_rsp (s : State) (r : BoundedRegs) : (s.holdDraw r).rsp = none := rfl
@[simp] theorem holdDraw_cmdIn (s : State) (r : BoundedRegs) : (s.holdDraw r).cmdIn = s.cmdIn := rfl
@[simp] theorem holdDraw_rstIn (s : State) (r : BoundedRegs) : (s.holdDraw r).rstIn = s.rstIn := rfl
@[simp] theorem holdDraw_busyTick (s : State) (r : BoundedRegs) : (s.holdDraw r).busyTick = s.busyTick + 1 := rfl

/-! ### `passRst` -/

@[simp] theorem passRst_state (s : State) : (s.passRst).state = s.state := rfl
@[simp] theorem passRst_inc (s : State) : (s.passRst).inc = s.inc := rfl
@[simp] theorem passRst_result (s : State) : (s.passRst).result = s.result := rfl
@[simp] theorem passRst_fault (s : State) : (s.passRst).fault = s.fault := rfl
@[simp] theorem passRst_fcode (s : State) : (s.passRst).fcode = s.fcode := rfl
@[simp] theorem passRst_busy (s : State) : (s.passRst).busy = s.busy := rfl
@[simp] theorem passRst_draw (s : State) : (s.passRst).draw = s.draw := rfl
@[simp] theorem passRst_rsp (s : State) : (s.passRst).rsp = s.rsp := rfl
@[simp] theorem passRst_cmdIn (s : State) : (s.passRst).cmdIn = s.cmdIn := rfl
@[simp] theorem passRst_rstIn (s : State) : (s.passRst).rstIn = s.rstIn.tail := rfl
@[simp] theorem passRst_busyTick (s : State) : (s.passRst).busyTick = s.busyTick := rfl

/-! ### `takeOffer` -/

@[simp] theorem takeOffer_state (s : State) : (s.takeOffer).state = s.state := rfl
@[simp] theorem takeOffer_inc (s : State) : (s.takeOffer).inc = s.inc := rfl
@[simp] theorem takeOffer_result (s : State) : (s.takeOffer).result = s.result := rfl
@[simp] theorem takeOffer_fault (s : State) : (s.takeOffer).fault = s.fault := rfl
@[simp] theorem takeOffer_fcode (s : State) : (s.takeOffer).fcode = s.fcode := rfl
@[simp] theorem takeOffer_busy (s : State) : (s.takeOffer).busy = s.busy := rfl
@[simp] theorem takeOffer_draw (s : State) : (s.takeOffer).draw = s.draw := rfl
@[simp] theorem takeOffer_rsp (s : State) : (s.takeOffer).rsp = s.rsp := rfl
@[simp] theorem takeOffer_cmdIn (s : State) : (s.takeOffer).cmdIn = s.cmdIn.tail := rfl
@[simp] theorem takeOffer_rstIn (s : State) : (s.takeOffer).rstIn = s.rstIn := rfl
@[simp] theorem takeOffer_busyTick (s : State) : (s.takeOffer).busyTick = s.busyTick := rfl

/-! ### `idle` -/

@[simp] theorem idle_state (s : State) : (s.idle).state = s.state := rfl
@[simp] theorem idle_inc (s : State) : (s.idle).inc = s.inc := rfl
@[simp] theorem idle_result (s : State) : (s.idle).result = s.result := rfl
@[simp] theorem idle_fault (s : State) : (s.idle).fault = s.fault := rfl
@[simp] theorem idle_fcode (s : State) : (s.idle).fcode = s.fcode := rfl
@[simp] theorem idle_busy (s : State) : (s.idle).busy = s.busy := rfl
@[simp] theorem idle_draw (s : State) : (s.idle).draw = s.draw := rfl
@[simp] theorem idle_rsp (s : State) : (s.idle).rsp = none := rfl
@[simp] theorem idle_cmdIn (s : State) : (s.idle).cmdIn = s.cmdIn := rfl
@[simp] theorem idle_rstIn (s : State) : (s.idle).rstIn = s.rstIn := rfl
@[simp] theorem idle_busyTick (s : State) : (s.idle).busyTick = s.busyTick := rfl

/-! ### `offerNow` -/

@[simp] theorem offerNow_state (s : State) (w : CmdWord) : (s.offerNow w).state = s.state := rfl
@[simp] theorem offerNow_inc (s : State) (w : CmdWord) : (s.offerNow w).inc = s.inc := rfl
@[simp] theorem offerNow_result (s : State) (w : CmdWord) : (s.offerNow w).result = s.result := rfl
@[simp] theorem offerNow_fault (s : State) (w : CmdWord) : (s.offerNow w).fault = s.fault := rfl
@[simp] theorem offerNow_fcode (s : State) (w : CmdWord) : (s.offerNow w).fcode = s.fcode := rfl
@[simp] theorem offerNow_busy (s : State) (w : CmdWord) : (s.offerNow w).busy = false := rfl
@[simp] theorem offerNow_draw (s : State) (w : CmdWord) : (s.offerNow w).draw = none := rfl
@[simp] theorem offerNow_rsp (s : State) (w : CmdWord) : (s.offerNow w).rsp = s.rsp := rfl
@[simp] theorem offerNow_cmdIn (s : State) (w : CmdWord) : (s.offerNow w).cmdIn = some w :: s.cmdIn := rfl
@[simp] theorem offerNow_rstIn (s : State) (w : CmdWord) : (s.offerNow w).rstIn = false :: s.rstIn := rfl
@[simp] theorem offerNow_busyTick (s : State) (w : CmdWord) : (s.offerNow w).busyTick = s.busyTick := rfl

end Sys2Proof.Machine
end

