-- ==== Sys2Proof/Laws/Ops.lean ====
section
/-! SUPPORT. What each shared operation of the machine can do, said once; later proofs cite these lemmas
instead of unfolding the operation. -/

namespace Sys2Proof.Machine

/-! ### The guard on a faulted block -/

theorem unlessFaulted_of_faulted {s : State} (h : s.fault = true) (t : State) :
    s.unlessFaulted t = s.refuseFaulted := by
  simp [State.unlessFaulted, h]

theorem unlessFaulted_of_clear {s : State} (h : s.fault = false) (t : State) : s.unlessFaulted t = t := by
  simp [State.unlessFaulted, h]

/-! ### One draw -/

/-- Everything a draw can do: it is rejected and held, or accepted and answered. -/
theorem drawPass_cases (s : State) (bound : Word) (drawn : Nat) :
    (drawRejected bound (drawWord sourceParams s.state) = true ∧
      s.drawPass bound drawn =
        (s.setState (nextTransition sourceParams s.state s.inc)).holdDraw
          ⟨bound, drawWord sourceParams s.state, drawn + 1⟩) ∨
    (drawRejected bound (drawWord sourceParams s.state) = false ∧
      s.drawPass bound drawn =
        ((s.setState (nextTransition sourceParams s.state s.inc)).setResult
          (drawHigh bound (drawWord sourceParams s.state))).respond .ok) := by
  cases h : drawRejected bound (drawWord sourceParams s.state) <;> simp [State.drawPass, h]

/-! ### The inputs of a step -/

/-- A step that accepts nothing takes at most a gap off the host's offers. -/
theorem holdOffer_cases (s : State) :
    s.holdOffer = s ∨ ∃ rest, s.cmdIn = none :: rest ∧ s.holdOffer = { s with cmdIn := rest } := by
  unfold State.holdOffer
  split
  · exact .inr ⟨_, ‹_›, rfl⟩
  · exact .inl rfl

@[simp] theorem holdOffer_state (s : State) : s.holdOffer.state = s.state := by
  unfold State.holdOffer; split <;> rfl
@[simp] theorem holdOffer_inc (s : State) : s.holdOffer.inc = s.inc := by
  unfold State.holdOffer; split <;> rfl
@[simp] theorem holdOffer_result (s : State) : s.holdOffer.result = s.result := by
  unfold State.holdOffer; split <;> rfl
@[simp] theorem holdOffer_fault (s : State) : s.holdOffer.fault = s.fault := by
  unfold State.holdOffer; split <;> rfl
@[simp] theorem holdOffer_fcode (s : State) : s.holdOffer.fcode = s.fcode := by
  unfold State.holdOffer; split <;> rfl
@[simp] theorem holdOffer_busy (s : State) : s.holdOffer.busy = s.busy := by
  unfold State.holdOffer; split <;> rfl
@[simp] theorem holdOffer_draw (s : State) : s.holdOffer.draw = s.draw := by
  unfold State.holdOffer; split <;> rfl
@[simp] theorem holdOffer_rsp (s : State) : s.holdOffer.rsp = s.rsp := by
  unfold State.holdOffer; split <;> rfl
@[simp] theorem holdOffer_rstIn (s : State) : s.holdOffer.rstIn = s.rstIn := by
  unfold State.holdOffer; split <;> rfl
@[simp] theorem holdOffer_busyTick (s : State) : s.holdOffer.busyTick = s.busyTick := by
  unfold State.holdOffer; split <;> rfl

/-- An offered word stays offered in a step that accepts nothing. -/
theorem holdOffer_of_offered {s : State} {w : CmdWord} (h : s.offeredWord = some w) : s.holdOffer = s := by
  unfold State.offeredWord at h
  unfold State.holdOffer
  split
  · next rest hr => simp [hr] at h
  · rfl

@[simp] theorem offeredWord_passRst (s : State) : s.passRst.offeredWord = s.offeredWord := rfl

/-! ### The command cycle -/

/-- Everything the acceptance of a word can do (R83's order). -/
theorem acceptCommand_cases (w : CmdWord) (s : State) :
    (s.fault = true ∧ acceptCommand w s = .next s.refuseFaulted) ∨
    (s.fault = false ∧ ∃ op, decode w = .illegal op ∧ acceptCommand w s = .next (s.raiseFault .illegalOp)) ∨
    (s.fault = false ∧ ∃ i, decode w = .command i ∧ acceptCommand w s = exec i s) := by
  unfold acceptCommand
  cases hf : s.fault
  · cases hd : decode w with
    | illegal op => exact .inr (.inl ⟨rfl, op, rfl, by simp⟩)
    | command i => exact .inr (.inr ⟨rfl, i, rfl, by simp⟩)
  · exact .inl ⟨rfl, by simp⟩

/-- Everything one step can do: reset; a stop where `BUSY = 1` and no BOUNDED is held; a draw; the
acceptance of a word; an idle step. -/
theorem step_cases (s : State) :
    (s.rstAsserted = true ∧ step s = .next s.passRst.holdOffer.applyReset) ∨
    (s.rstAsserted = false ∧ s.busy = true ∧ s.draw = none ∧ step s = .fault .busyWithoutBounded) ∨
    (s.rstAsserted = false ∧ s.busy = true ∧ ∃ regs, s.draw = some regs ∧
      step s = .next (s.passRst.holdOffer.drawPass regs.sBound regs.sN)) ∨
    (s.rstAsserted = false ∧ s.busy = false ∧ ∃ w, s.offeredWord = some w ∧
      step s = acceptCommand w s.passRst.takeOffer) ∨
    (s.rstAsserted = false ∧ s.busy = false ∧ s.offeredWord = none ∧
      step s = .next s.passRst.holdOffer.idle) := by
  unfold step cycle
  cases hr : s.rstAsserted
  · cases hb : s.busy
    · refine .inr (.inr (.inr ?_))
      cases hw : s.offeredWord with
      | none => exact .inr ⟨rfl, rfl, rfl, by simp [readyCycle, hw]⟩
      | some w => exact .inl ⟨rfl, rfl, w, rfl, by simp [readyCycle, hw]⟩
    · cases hd : s.draw with
      | none => exact .inr (.inl ⟨rfl, rfl, rfl, by simp [busyCycle, hd]⟩)
      | some regs => exact .inr (.inr (.inl ⟨rfl, rfl, regs, rfl, by simp [busyCycle, hd]⟩))
  · exact .inl ⟨rfl, by simp⟩

/-! ### Steps and runs -/

/-- The step after `withFetchWord` accepts exactly the table word, from the state with no command in
progress. -/
theorem step_withFetchWord (s : State) (nbits w : Nat) :
    step (s.withFetchWord nbits w) =
      acceptCommand (tableWord nbits w) { s with busy := false, draw := none } := rfl

/-- The response shown by a step comes first in what the run shows. -/
theorem responsesOf_succ {s t : State} (h : step s = .next t) (k : Nat) :
    responsesOf (k + 1) s = t.rsp.toList ++ responsesOf k t := by
  simp [responsesOf, h]

theorem rstAsserted_of_rstLow {s : State} (h : RstLow s) : s.rstAsserted = false := by
  unfold State.rstAsserted
  cases hr : s.rstIn with
  | nil => rfl
  | cons a l => exact h a (by simp [hr])

end Sys2Proof.Machine
end

