-- ==== Sys2Proof/Laws/PerInstr.lean ====
section
/-! SUPPORT. A family of statements about the instruction as syntax, one lemma per command. -/

namespace Sys2Proof.Laws.Fields

/-- R39, R40, R41: the three fields of an encoded command are its opcode, one of the seven, and its operands
as the assembler writes them. -/
def Statement (i : Instr) : Prop :=
  opField (encode i) = opcodeOf i ∧ aField (encode i) = operandA i ∧ bField (encode i) = operandB i ∧
    (opcodeOf i).toNat < 0x07

/-- The three fields of a packed word are what was packed. -/
theorem fields_packCommand (op : Opcode) (a b : Word) :
    opField (packCommand op a b) = op ∧ aField (packCommand op a b) = a ∧ bField (packCommand op a b) = b := by
  refine ⟨?_, ?_, ?_⟩ <;> ext k hk <;>
    simp only [opField, aField, bField, packCommand, BitVec.getElem_extractLsb', BitVec.getLsbD_append] <;> grind

theorem statement_of_opcode {i : Instr} (h : (opcodeOf i).toNat < 0x07) : Statement i :=
  ⟨(fields_packCommand _ _ _).1, (fields_packCommand _ _ _).2.1, (fields_packCommand _ _ _).2.2, h⟩

theorem nop : Statement .nop := statement_of_opcode (by decide)
theorem seed (a b : Word) : Statement (.seed a b) := statement_of_opcode (by simp [opcodeOf])
theorem load (a b : Word) : Statement (.load a b) := statement_of_opcode (by simp [opcodeOf])
theorem step : Statement .step := statement_of_opcode (by decide)
theorem next : Statement .next := statement_of_opcode (by decide)
theorem jump (a : Word) : Statement (.jump a) := statement_of_opcode (by simp [opcodeOf])
theorem bounded (a : Word) : Statement (.bounded a) := statement_of_opcode (by simp [opcodeOf])

end Sys2Proof.Laws.Fields
end

