-- ==== Sys2Proof/Tests/Slice0.lean ====
section
/-! SUPPORT. Tests with expected values from spec/95_test_vectors.md, and for every statement with hypotheses
a witness: concrete states and operands that meet all its hypotheses together. -/

open Sys2Proof Sys2Proof.Machine

namespace Sys2Proof.Tests

/-! ### Helpers -/

/-- The next state of an outcome, if it has one. -/
def nextOf : Host.Outcome State Fault Refusal → Option State
  | .next s => some s
  | .fault _ => none
  | .refused _ => none

/-- The reset state with the given `STATE` and `INC = 1`. -/
def at1 (state : Word) : State := { State.reset with state := state }

/-- `s` with the word offered, and nothing else. -/
def offering (w : CmdWord) (s : State) : State := { s with cmdIn := [some w], rstIn := [] }

/-- The reset state after a BOUND_ZERO fault. -/
def faulted : State := { State.reset with fault := true, fcode := 1#2 }

/-- A BOUNDED by 0x80000001 in progress after one rejected draw (95 section 2.9, from `seed 1, 0`). -/
def drawing : State :=
  { at1 0xE265075B#32 with busy := true, draw := some ⟨0x80000001#32, 0xC8EB9FC9#32, 1⟩ }

/-! ### WellFormed: one ill-formed line for each check (R44), and the ends of the range -/

theorem test_wellFormed_ends :
    AsmLine.wellFormed (.seed 0 4294967295) = true ∧ AsmLine.wellFormed (.jumpb 4294967295) = true ∧
      AsmLine.wellFormed (.pick 1099511627776) = true := by decide
theorem test_illFormed_seed_a : AsmLine.wellFormed (.seed 4294967296 0) = false := by decide
theorem test_illFormed_seed_b : AsmLine.wellFormed (.seed 0 4294967296) = false := by decide
theorem test_illFormed_load_a : AsmLine.wellFormed (.load 4294967296 0) = false := by decide
theorem test_illFormed_load_b : AsmLine.wellFormed (.load 0 4294967296) = false := by decide
theorem test_illFormed_jump : AsmLine.wellFormed (.jump 4294967296) = false := by decide
theorem test_illFormed_bounded : AsmLine.wellFormed (.bounded 4294967296) = false := by decide
theorem test_illFormed_jumpb : AsmLine.wellFormed (.jumpb 4294967296) = false := by decide
theorem test_assemble_refuses_ill_formed : assemble (.jump 4294967296) = none := by decide

/-! ### Decode: words written out from R39 and R41, as in 95 section 3 -/

theorem test_decode_nop : decode 0x000000000000000000#72 = .command .nop := by decide
theorem test_decode_seed : decode 0x000000000000303901#72 = .command (.seed 12345#32 0#32) := by decide
theorem test_decode_seed_b : decode 0x000000030000000701#72 = .command (.seed 7#32 3#32) := by decide
theorem test_decode_load : decode 0x0000000189941D6902#72 = .command (.load 0x89941D69#32 1#32) := by decide
theorem test_decode_step : decode 0x000000000000000003#72 = .command .step := by decide
theorem test_decode_next : decode 0x000000000000000004#72 = .command .next := by decide
theorem test_decode_jump : decode 0x000000004000000005#72 = .command (.jump 0x40000000#32) := by decide
theorem test_decode_bounded : decode 0x000000000000000406#72 = .command (.bounded 4#32) := by decide
theorem test_decode_reserved : decode 0x12345678000000FF08#72 = .illegal 0x08#8 := by decide
theorem test_encode_seed : encode (.seed 42#32 54#32) = 0x000000360000002A01#72 := by decide
theorem test_decodeTableWord : decodeTableWord 72 0x000000000001413706 = some (.bounded 82231#32) := by decide

/-- R44's example, as text: `seed 12345, 0`. -/
theorem test_assembleLine_seed :
    assembleLine ['s', 'e', 'e', 'd', ' ', '1', '2', '3', '4', '5', ',', ' ', '0'] =
      .command (.seed 12345#32 0#32) := by decide

/-- R44's example, as it is written out: `00000000_00003039_01`. -/
theorem test_writeWord_seed :
    writeWord (encode (.seed 12345#32 0#32)) =
      ['0', '0', '0', '0', '0', '0', '0', '0', '_', '0', '0', '0', '0', '3', '0', '3', '9', '_', '0', '1'] := by
  decide

/-! ### One step of each command (values of 95) -/

theorem test_nop_responds :
    (nextOf (exec .nop State.reset)).map (fun t => (t.rsp, t.state)) =
      some (some ⟨.ok, 0#32⟩, 0xF13283AE#32) := by decide
theorem test_seed_wraps :
    (nextOf (exec (.seed 4294967295#32 0x7FFFFFFF#32) State.reset)).map (fun t => (t.state, t.inc)) =
      some (0x1D9AF8A5#32, 0xFFFFFFFF#32) := by decide
theorem test_seed_drops_bit_31 :
    (nextOf (exec (.seed 0#32 0x80000000#32) State.reset)).map (fun t => (t.state, t.inc)) =
      some (0xF13283AE#32, 1#32) := by decide
theorem test_load_even_increment :
    (nextOf (exec (.load 5#32 2#32) State.reset)).map (fun t => (t.state, t.inc)) = some (5#32, 2#32) := by decide
theorem test_step_vector :
    (nextOf (exec .step { State.reset with state := 0x12345678#32, inc := 0x9ABCDEF1#32 })).map (·.state) =
      some 0x8BCAB609#32 := by decide
theorem test_next_longest_shift :
    (nextOf (exec .next (at1 0xFFFFFFFF#32))).map (fun t => (t.result, t.state)) =
      some (0x3233D210#32, 0xF81A03F9#32) := by decide
theorem test_next_shortest_shift :
    (nextOf (exec .next (at1 0x0FFFFFFF#32))).map (fun t => (t.result, t.state)) =
      some (0xC78EF1C6#32, 0xC80EA3F9#32) := by decide
theorem test_jump_five :
    (nextOf (exec (.jump 5#32) State.reset)).map (fun t => (t.state, t.result)) =
      some (0x6D81F113#32, 0#32) := by decide
theorem test_jump_backward :
    (nextOf (exec (.jump 0xFFFFFFFF#32) (at1 0x5E810697#32))).map (·.state) = some 0xF13283AE#32 := by
  decide +kernel
theorem test_bounded_accepts :
    (nextOf (exec (.bounded 6#32) State.reset)).map (fun t => (t.result, t.state, t.busy)) =
      some (4#32, 0x948473B9#32, false) := by decide
theorem test_bounded_rejects :
    (nextOf (exec (.bounded 0x80000001#32) (at1 0xE265075B#32))).map (fun t => (t.result, t.busy, t.draw)) =
      some (0#32, true, some ⟨0x80000001#32, 0xC8EB9FC9#32, 1⟩) := by decide

/-- 95 section 2.10: `bounded 0`. -/
theorem test_step_bounded_zero :
    (nextOf (step (offering 0x000000000000000006#72 State.reset))).map (fun t => (t.rsp, t.statusO)) =
      some (some ⟨.errBoundZero, 0#32⟩, 0x06#8) := by decide

/-- 95 section 2.10: opcode 0x07. -/
theorem test_step_illegal_opcode :
    (nextOf (step (offering 0x000000000000000007#72 State.reset))).map (fun t => (t.rsp, t.statusO)) =
      some (some ⟨.errIllegalOp, 0#32⟩, 0x0A#8) := by decide

/-- 95 section 2.10: any word while `FAULT = 1`. -/
theorem test_step_faulted :
    (nextOf (step (offering 0x000000000000000004#72 faulted))).map (fun t => (t.rsp, t.fcode, t.state)) =
      some (some ⟨.errFaulted, 0#32⟩, 1#2, 0xF13283AE#32) := by decide

/-- R43: `rsp_status` is 0 for OK, 1 for ERR_BOUND_ZERO, 2 for ERR_ILLEGAL_OP, 3 for ERR_FAULTED. -/
theorem test_rsp_status :
    [offering 0x000000000000000000#72 State.reset, offering 0x000000000000000006#72 State.reset,
      offering 0x000000000000000007#72 State.reset, offering 0x000000000000000000#72 faulted].map
        (fun s => (nextOf (step s)).bind State.rspStatus) =
      [some 0#2, some 1#2, some 2#2, some 3#2] := by decide

/-- R23: the big-endian bytes of a pair, the state's first. -/
theorem test_serialise_big :
    serialise .big (0x01020304#32, 0xA5A6A7A8#32) =
      [0x01#8, 0x02#8, 0x03#8, 0x04#8, 0xA5#8, 0xA6#8, 0xA7#8, 0xA8#8] := by decide

/-- 95 section 2.10: `next` with non-zero unused operands. -/
theorem test_step_next_ignores_operands :
    (nextOf (step (State.reset.withFetchWord 72 0x123456789ABCDEF004))).map (fun t => (t.rsp, t.state)) =
      some (some ⟨.ok, 0xC49FFA8A#32⟩, 0x948473B9#32) := by decide

/-- R93: reset abandons a BOUNDED in progress. -/
theorem test_step_reset_abandons :
    (nextOf (step { drawing with rstIn := [true] })).map (fun t => (t.busy, t.draw, t.rsp, t.state)) =
      some (false, none, none, 0xF13283AE#32) := by decide

/-! ### Witnesses -/

theorem accepts_offering (w : CmdWord) {s : State} (h : s.busy = false) : Accepts (offering w s) w :=
  ⟨rfl, h, rfl⟩

theorem witness_EncodeOfDecode :
    decode 0x123456789ABCDEF004#72 = .command .next ∧
      decode 0x123456789ABCDEF005#72 = .command (.jump 0x9ABCDEF0#32) ∧
      decode 0x123456789ABCDEF001#72 = .command (.seed 0x9ABCDEF0#32 0x12345678#32) := by decide

theorem witness_OperandsUsedOrIgnored :
    (0x00#8 : Opcode) ∈ [0x00#8, 0x03#8, 0x04#8] ∧ (0x06#8 : Opcode) ∈ [0x05#8, 0x06#8] := by decide

theorem witness_ReservedOpcodesRaiseIllegalOp :
    Accepts (offering 0x000000000000000007#72 State.reset) 0x000000000000000007#72 ∧
      (offering 0x000000000000000007#72 State.reset).fault = false ∧
      0x07 ≤ (opField 0x000000000000000007#72).toNat ∧ 0x07 ≤ (opField 0x0000000000000000FF#72).toNat ∧
      (opField 0x000000000000000006#72).toNat < 0x07 :=
  ⟨accepts_offering _ rfl, rfl, by decide, by decide, by decide⟩

theorem witness_PseudoInstructionsExpand :
    0 ≤ 4294967295 ∧ 4294967295 ≤ 4294967295 ∧ State.reset.fault = false := by decide

theorem witness_StepRunsTheDecodedCommand :
    Accepts (offering 0x000000000000000003#72 faulted) 0x000000000000000003#72 ∧
      decode 0x000000000000000003#72 = .command .step :=
  ⟨accepts_offering _ rfl, by decide⟩

theorem witness_FaultedBlockRefusesEveryCommand :
    Accepts (offering 0x0000000000000000FF#72 faulted) 0x0000000000000000FF#72 ∧
      (offering 0x0000000000000000FF#72 faulted).fault = true :=
  ⟨accepts_offering _ rfl, rfl⟩

theorem witness_FirstCheckWins_refused :
    ∃ t, Accepts (offering 0x000000000000000006#72 faulted) 0x000000000000000006#72 ∧
      step (offering 0x000000000000000006#72 faulted) = .next t :=
  ⟨_, accepts_offering _ rfl, rfl⟩

theorem witness_FirstCheckWins_illegal :
    ∃ t, Accepts (offering 0x000000000000000007#72 State.reset) 0x000000000000000007#72 ∧
      step (offering 0x000000000000000007#72 State.reset) = .next t ∧
      0x07 ≤ (opField 0x000000000000000007#72).toNat :=
  ⟨_, accepts_offering _ rfl, rfl, by decide⟩

theorem witness_FirstCheckWins_boundZero :
    ∃ t, Accepts (offering 0x000000010000000006#72 State.reset) 0x000000010000000006#72 ∧
      step (offering 0x000000010000000006#72 State.reset) = .next t ∧
      (opField 0x000000010000000006#72).toNat = 0x06 ∧ aField 0x000000010000000006#72 = 0#32 :=
  ⟨_, accepts_offering _ rfl, rfl, by decide, by decide⟩

theorem witness_FirstCheckWins_ok :
    ∃ t, Accepts (offering 0x000000000000000106#72 State.reset) 0x000000000000000106#72 ∧
      step (offering 0x000000000000000106#72 State.reset) = .next t ∧
      (opField 0x000000000000000106#72).toNat < 0x07 ∧
      ¬((opField 0x000000000000000106#72).toNat = 0x06 ∧ aField 0x000000000000000106#72 = 0#32) :=
  ⟨_, accepts_offering _ rfl, rfl, by decide, by decide⟩

theorem witness_OfferHeldWhileBusy :
    ∃ t, (offering 0#72 drawing).busy = true ∧ (offering 0#72 drawing).offeredWord = some 0#72 ∧
      step (offering 0#72 drawing) = .next t :=
  ⟨_, rfl, rfl, rfl⟩

theorem witness_OfferHeldWhileBusy_taken :
    ∃ t, step (offering 0#72 State.reset) = .next t ∧
      t.pendingCommands ≠ (offering 0#72 State.reset).pendingCommands :=
  ⟨_, rfl, by decide⟩

/-- A consistent state other than reset: a fault is set. -/
theorem consistent_faulted : Consistent faulted :=
  ⟨⟨by decide, by decide⟩, rfl, trivial⟩

/-- A consistent state with a BOUNDED in progress. -/
theorem consistent_drawing : Consistent drawing :=
  ⟨⟨by decide, by decide⟩, ⟨rfl, rfl, by decide, by decide, by decide⟩, trivial⟩

theorem witness_OneResponsePerCommand : ∃ t, Consistent drawing ∧ RstLow drawing ∧ StepsTo 1 drawing t :=
  ⟨_, consistent_drawing, (fun _ h => nomatch h), _, rfl, rfl⟩

/-- An idle step after a response, in a gap before a later offer, with `rst` explicitly low. -/
def idleInAGap : State :=
  { faulted with rsp := some ⟨.errBoundZero, 0#32⟩, cmdIn := [none, none, some 0#72], rstIn := [false, false, true] }

theorem witness_IdleHoldsItsState :
    idleInAGap.busy = false ∧ idleInAGap.offeredWord = none ∧ idleInAGap.rstAsserted = false := by decide

/-- At the boundary: the third offer is a word and the third level is high. -/
theorem witness_IdleHoldsItsState_run :
    idleInAGap.busy = false ∧ (∀ offer ∈ idleInAGap.cmdIn.take 2, offer = none) ∧
      ∀ level ∈ idleInAGap.rstIn.take 2, level = false := by simp [idleInAGap, faulted, State.reset]

/-- The hypothesis of the result statements: a state with `FAULT = 0`, and one with `FAULT = 1`. -/
theorem witness_CommandResults :
    (at1 0xFFFFFFFF#32).fault = false ∧ faulted.fault = true := by decide

theorem witness_SeedBuildsTheGenerator :
    ∃ t u, State.reset.fault = false ∧ exec (.seed 0xFFFFFFFF#32 0x80000000#32) State.reset = .next t ∧
      exec (.seed 0xFFFFFFFF#32 0x80000000#32) State.reset = .next u ∧ t.state = u.state :=
  ⟨_, _, rfl, rfl, rfl, rfl⟩

theorem witness_LoadImportsThePair : drawing.busy = true ∧ faulted.busy = false ∧ State.reset.fault = false := by
  decide

theorem witness_LoadResumes_next :
    ∃ u', State.reset.busy = false ∧ State.reset.fault = false ∧ (at1 5#32).fault = false ∧
      decode 0x000000000000000004#72 = .command .next ∧
      exec (importCommand State.reset.exported) (at1 5#32) = .next u' :=
  ⟨_, rfl, rfl, rfl, by decide, rfl⟩

theorem witness_LoadResumes_bounded :
    ∃ b, b ≠ 0#32 ∧ decode 0x000000000000000106#72 = .command (.bounded b) :=
  ⟨1#32, by decide, by decide⟩

/-- Before the NEXT: a gap, and a JUMP. -/
theorem witness_LoadResumes_before :
    (∀ v, some v ∈ [none, some 0x000000000000000505#72] → ∃ i, decode v = .command i ∧ i ≠ .bounded 0#32) ∧
      ∀ level ∈ [false], level = false := by
  refine ⟨fun v hv => ⟨.jump 5#32, ?_, nofun⟩, by decide⟩
  obtain rfl : v = 0x000000000000000505#72 := by simpa using hv
  decide

theorem witness_JumpLaws : (at1 0#32).fault = false ∧ 0 ≤ 4294967295 ∧ 4294967295 ≤ 4294967295 := by decide

theorem witness_OddIncrementHasFullPeriod : (0xFFFFFFFF#32 : Word).getLsbD 0 = true := by decide

theorem witness_NextPermutesOutputsAndAdvances :
    (at1 0xFFFFFFFF#32).fault = false ∧
      0x3233D2D8#32 = (at1 0xFFFFFFFF#32).state ^^^
        (277803737#32 * ((at1 0xFFFFFFFF#32).state >>> (4 + ((at1 0xFFFFFFFF#32).state >>> 28).toNat))) := by
  decide

theorem witness_NextIsEntangled :
    ∃ t u, (at1 1#32).fault = false ∧ exec .next (at1 1#32) = .next t ∧ exec .step (at1 1#32) = .next u :=
  ⟨_, _, rfl, rfl, rfl⟩

theorem witness_ThresholdIsTwoPow32ModBound :
    (0xFFFFFFFF#32 : Word) ≠ 0#32 ∧ (1#32 : Word).toNat = 2 ^ 0 ∧ (0x80000000#32 : Word).toNat = 2 ^ 31 ∧
      2 ^ 31 < (0x80000001#32 : Word).toNat := by decide

/-- At the boundary: `lo` is the threshold (0), accepted. -/
theorem witness_BoundedTakesTheFirstDraw_accepted :
    (at1 0#32).fault = false ∧ (1#32 : Word) ≠ 0#32 ∧ 0#32 = drawWord sourceParams (at1 0#32).state ∧
      2 ^ 32 % (1#32 : Word).toNat ≤ (1#32 : Word).toNat * (0#32 : Word).toNat % 2 ^ 32 := by decide

/-- At the boundary: `lo` (0) is one below the threshold (1), rejected. -/
theorem witness_BoundedTakesTheFirstDraw_rejected :
    (at1 0#32).fault = false ∧ (0xFFFFFFFF#32 : Word) ≠ 0#32 ∧ 0#32 = drawWord sourceParams (at1 0#32).state ∧
      (0xFFFFFFFF#32 : Word).toNat * (0#32 : Word).toNat % 2 ^ 32 < 2 ^ 32 % (0xFFFFFFFF#32 : Word).toNat := by
  decide

/-- A BOUNDED in progress at `STATE = 0`, whose next draw is 0. -/
def drawingZero (bound : Word) : State :=
  { at1 0#32 with busy := true, draw := some ⟨bound, 7#32, 2⟩ }

theorem witness_BoundedDrawsAgainWhileBusy_accepted :
    (drawingZero 1#32).rstAsserted = false ∧ (drawingZero 1#32).busy = true ∧
      (drawingZero 1#32).draw = some ⟨1#32, 7#32, 2⟩ ∧ (1#32 : Word) ≠ 0#32 ∧
      0#32 = drawWord sourceParams (drawingZero 1#32).state ∧
      2 ^ 32 % (1#32 : Word).toNat ≤ (1#32 : Word).toNat * (0#32 : Word).toNat % 2 ^ 32 := by decide

theorem witness_BoundedDrawsAgainWhileBusy_rejected :
    (drawingZero 0xFFFFFFFF#32).rstAsserted = false ∧ (drawingZero 0xFFFFFFFF#32).busy = true ∧
      (drawingZero 0xFFFFFFFF#32).draw = some ⟨0xFFFFFFFF#32, 7#32, 2⟩ ∧ (0xFFFFFFFF#32 : Word) ≠ 0#32 ∧
      0#32 = drawWord sourceParams (drawingZero 0xFFFFFFFF#32).state ∧
      (0xFFFFFFFF#32 : Word).toNat * (0#32 : Word).toNat % 2 ^ 32 < 2 ^ 32 % (0xFFFFFFFF#32 : Word).toNat := by
  decide

theorem witness_SingleTestRejectsTheSameDraws : (1#32 : Word) ≠ 0#32 ∧ (0xFFFFFFFF#32 : Word) ≠ 0#32 := by
  decide

/-- No draw is rejected before the accepted one. -/
theorem witness_BoundedAcceptsTheFirstGoodDraw_one :
    Accepts (offering 0x000000000000000106#72 (at1 0#32)) 0x000000000000000106#72 ∧
      RstLow (offering 0x000000000000000106#72 (at1 0#32)) ∧
      (offering 0x000000000000000106#72 (at1 0#32)).fault = false ∧
      decode 0x000000000000000106#72 = .command (.bounded 1#32) ∧ (1#32 : Word) ≠ 0#32 ∧
      (∀ j : Nat, j < 0 →
        drawLow 1#32 (drawWord sourceParams (nextTransitions sourceParams 0#32 1#32 j)) < threshold 1#32) ∧
      threshold 1#32 ≤ drawLow 1#32 (drawWord sourceParams (nextTransitions sourceParams 0#32 1#32 0)) :=
  ⟨accepts_offering _ rfl, (fun _ h => nomatch h), rfl, by decide, by decide, (fun _ h => nomatch h), by decide⟩

/-- One draw is rejected before the accepted one (95 section 2.9). -/
theorem witness_BoundedAcceptsTheFirstGoodDraw_two :
    Accepts (offering 0x000000008000000106#72 (at1 0xE265075B#32)) 0x000000008000000106#72 ∧
      RstLow (offering 0x000000008000000106#72 (at1 0xE265075B#32)) ∧
      (offering 0x000000008000000106#72 (at1 0xE265075B#32)).fault = false ∧
      decode 0x000000008000000106#72 = .command (.bounded 0x80000001#32) ∧ (0x80000001#32 : Word) ≠ 0#32 ∧
      (∀ j : Nat, j < 1 →
        drawLow 0x80000001#32 (drawWord sourceParams (nextTransitions sourceParams 0xE265075B#32 1#32 j)) <
          threshold 0x80000001#32) ∧
      threshold 0x80000001#32 ≤
        drawLow 0x80000001#32 (drawWord sourceParams (nextTransitions sourceParams 0xE265075B#32 1#32 1)) :=
  ⟨accepts_offering _ rfl, (fun _ h => nomatch h), rfl, by decide, by decide, by decide, by decide⟩

theorem witness_BoundedResultBelowBound :
    ∃ t, State.reset.fault = false ∧ (6#32 : Word) ≠ 0#32 ∧ exec (.bounded 6#32) State.reset = .next t ∧
      t.busy = false :=
  ⟨_, rfl, by decide, rfl, rfl⟩

theorem witness_BoundedResultBelowBound_busy :
    ∃ t, (drawingZero 1#32).rstAsserted = false ∧ (drawingZero 1#32).busy = true ∧
      (drawingZero 1#32).draw = some ⟨1#32, 7#32, 2⟩ ∧ (1#32 : Word) ≠ 0#32 ∧
      step (drawingZero 1#32) = .next t ∧ t.busy = false :=
  ⟨_, rfl, rfl, rfl, by decide, rfl, rfl⟩

theorem witness_BoundedByAPowerOfTwo :
    State.reset.fault = false ∧ 0 < 32 ∧ (1#32 : Word).toNat = 2 ^ 0 ∧ 31 < 32 ∧
      (0x80000000#32 : Word).toNat = 2 ^ 31 := by decide

/-- R68's example: the fixed point 0x812D3F80 and the bound 82231. -/
theorem witness_BoundedHangsAtARejectedFixedPoint :
    Accepts (offering 0x000000000001413706#72 (at1 0x812D3F80#32)) 0x000000000001413706#72 ∧
      RstLow (offering 0x000000000001413706#72 (at1 0x812D3F80#32)) ∧
      (offering 0x000000000001413706#72 (at1 0x812D3F80#32)).fault = false ∧
      decode 0x000000000001413706#72 = .command (.bounded 82231#32) ∧ (82231#32 : Word) ≠ 0#32 ∧
      nextTransition sourceParams 0x812D3F80#32 1#32 = 0x812D3F80#32 ∧
      drawRejected 82231#32 (drawWord sourceParams 0x812D3F80#32) = true :=
  ⟨accepts_offering _ rfl, (fun _ h => nomatch h), rfl, by decide, by decide, by decide, by decide⟩

theorem witness_OnlyAZeroBoundRaisesBoundZero :
    ∃ t, (offering 0x000000000000000006#72 State.reset).fault = false ∧
      step (offering 0x000000000000000006#72 State.reset) = .next t ∧ t.fault = true ∧ t.fcode = 1#2 :=
  ⟨_, rfl, rfl, rfl, rfl⟩

theorem witness_FaultsArePrecise_boundZero :
    ∃ t, (offering 0xFFFFFFFF0000000006#72 State.reset).fault = false ∧
      step (offering 0xFFFFFFFF0000000006#72 State.reset) = .next t ∧ t.fault = true :=
  ⟨_, rfl, rfl, rfl⟩

theorem witness_FaultsArePrecise_illegalOp :
    ∃ t, (offering 0x000000000000000007#72 State.reset).fault = false ∧
      step (offering 0x000000000000000007#72 State.reset) = .next t ∧ t.fault = true :=
  ⟨_, rfl, rfl, rfl⟩

theorem witness_FaultIsStickyUntilReset : Consistent faulted ∧ faulted.fault = true ∧ RstLow faulted :=
  ⟨consistent_faulted, rfl, (fun _ h => nomatch h)⟩

theorem witness_ResetFromEveryState :
    ∃ t, ({ drawing with rstIn := [true] } : State).rstAsserted = true ∧
      ({ faulted with rstIn := [true] } : State).fault = true ∧
      step { faulted with rstIn := [true] } = .next t ∧ t.fault = false :=
  ⟨_, rfl, rfl, rfl, rfl⟩

theorem witness_PortsShowTheRegisters :
    faulted.busy = false ∧ faulted.rsp = none ∧ idleInAGap.rsp = some ⟨.errBoundZero, 0#32⟩ ∧
      (faulted.respond .ok).rsp = some ⟨.ok, 0#32⟩ ∧
      (faulted.respond .errIllegalOp).rsp = some ⟨.errIllegalOp, 0#32⟩ ∧
      (faulted.respond .errFaulted).rsp = some ⟨.errFaulted, 0#32⟩ := by decide

theorem witness_ConsistencyIsKept : ∃ t, Consistent drawing ∧ step drawing = .next t :=
  ⟨_, consistent_drawing, rfl⟩

theorem witness_ConsistentStatesGoOn : Consistent drawing ∧ Consistent faulted :=
  ⟨consistent_drawing, consistent_faulted⟩

theorem witness_OnlySeedAndLoadWriteInc :
    ∃ t, step (offering 0x000000050000000002#72 State.reset) = .next t ∧
      t.inc ≠ (offering 0x000000050000000002#72 State.reset).inc :=
  ⟨_, rfl, by decide⟩

theorem witness_OnlyNextAndBoundedWriteResult :
    ∃ t r, step (offering 0x000000000000000004#72 State.reset) = .next t ∧
      t.result ≠ (offering 0x000000000000000004#72 State.reset).result ∧ t.rsp = some r :=
  ⟨_, _, rfl, by decide, rfl⟩

theorem witness_FrameOfEveryCommand :
    ∃ t u, State.reset.fault = false ∧ exec .nop State.reset = .next t ∧
      exec (.bounded 0xFFFFFFFF#32) (at1 0#32) = .next u ∧ u.busyTick ≠ (at1 0#32).busyTick :=
  ⟨_, _, rfl, rfl, rfl, by decide⟩

theorem witness_ResultInfluencesNothingElse :
    ∃ s', SameButResult State.reset { State.reset with result := 5#32 } ∧ StepsTo 1 State.reset s' :=
  ⟨_, ⟨rfl, rfl, rfl, rfl, rfl, rfl, rfl, rfl, rfl, rfl⟩, _, rfl, rfl⟩

/-- The raw words of 95 section 2.11. -/
theorem witness_HostIntegersFromRawWords :
    State.reset.busy = false ∧ State.reset.fault = false ∧
      0xC49FFA8A#32 = drawWord sourceParams State.reset.state ∧
      0x360644CA#32 =
        drawWord sourceParams (nextTransition sourceParams State.reset.state State.reset.inc) := by decide

theorem witness_PickedIndexIsInRange :
    ∃ t index, State.reset.busy = false ∧ State.reset.fault = false ∧
      hostPickIndex 1 6 State.reset = .done index t :=
  ⟨_, _, rfl, rfl, rfl⟩

theorem witness_ShufflePermutes :
    ∃ ys t, hostShuffle 1 [10, 20] State.reset = .done ys t :=
  ⟨_, _, rfl⟩

theorem witness_ShufflePermutes_idle :
    State.reset.busy = false ∧ State.reset.fault = false ∧ [10, 20].length ≤ 4294967295 := by decide

/-- A sequence of 2^32 elements, which no list literal can be. -/
theorem witness_ShufflePermutes_tooLong : 4294967295 < (List.replicate 4294967296 (0 : Nat)).length := by
  rw [List.length_replicate]
  decide

end Sys2Proof.Tests
end

section
/-! SUPPORT. What one command and one step can do, said once and in both directions: `CommandEffect` and
`StepEffect` list every outcome, and the whole-machine rules below are case analyses over them. -/

namespace Sys2Proof.Machine

/-! ### One command on a block without a fault -/

/-- The registers a command writes before it responds, for the six commands that complete in the step that
accepts them (R46); a BOUNDED draws instead. -/
def registerWrites : Instr → State → State
  | .nop, s => s
  | .seed seedValue streamId, s =>
    (s.setState (seedState sourceParams seedValue (seedIncrement streamId))).setInc (seedIncrement streamId)
  | .load stateValue incValue, s => (s.setState stateValue).setInc incValue
  | .step, s => s.setState (lcgStep sourceParams s.state s.inc)
  | .next, s =>
    (s.setResult (drawWord sourceParams s.state)).setState (nextTransition sourceParams s.state s.inc)
  | .jump delta, s => s.setState (advance sourceParams s.state s.inc delta)
  | .bounded _, s => s

/-- `registerWrites` is what `exec` does to the registers, but for the guard on a faulted block and the
response. -/
theorem exec_of_notBounded {i : Instr} (notBounded : ∀ b, i ≠ .bounded b) (s : State) :
    exec i s = .next (s.unlessFaulted ((registerWrites i s).respond .ok)) := by
  cases i with
  | bounded b => exact absurd rfl (notBounded b)
  | nop | seed | load | step | next | jump => rfl

@[simp] theorem registerWrites_fault (i : Instr) (s : State) : (registerWrites i s).fault = s.fault := by
  cases i <;> rfl
@[simp] theorem registerWrites_fcode (i : Instr) (s : State) : (registerWrites i s).fcode = s.fcode := by
  cases i <;> rfl
@[simp] theorem registerWrites_cmdIn (i : Instr) (s : State) : (registerWrites i s).cmdIn = s.cmdIn := by
  cases i <;> rfl
@[simp] theorem registerWrites_rstIn (i : Instr) (s : State) : (registerWrites i s).rstIn = s.rstIn := by
  cases i <;> rfl
@[simp] theorem registerWrites_busyTick (i : Instr) (s : State) :
    (registerWrites i s).busyTick = s.busyTick := by
  cases i <;> rfl

/-- R17: of the commands, only SEED and LOAD write `INC`. -/
theorem registerWrites_inc {i : Instr} (notSeed : ∀ a b, i ≠ .seed a b) (notLoad : ∀ a b, i ≠ .load a b)
    (s : State) : (registerWrites i s).inc = s.inc := by
  cases i with
  | seed a b => exact absurd rfl (notSeed a b)
  | load a b => exact absurd rfl (notLoad a b)
  | nop | step | next | jump | bounded => rfl

/-- R19: of the commands that complete in one step, only NEXT writes `RESULT`. -/
theorem registerWrites_result {i : Instr} (notNext : i ≠ .next) (s : State) :
    (registerWrites i s).result = s.result := by
  cases i with
  | next => exact absurd rfl notNext
  | nop | seed | load | step | jump | bounded => rfl

/-- Everything a command can do where `FAULT = 0`: it writes its registers and responds, or it is a BOUNDED,
which faults on a zero bound and otherwise takes its first draw. -/
inductive CommandEffect (s : State) : Instr → State → Prop
  | write {i : Instr} (notBounded : ∀ b, i ≠ .bounded b) :
      CommandEffect s i ((registerWrites i s).respond .ok)
  | zeroBound : CommandEffect s (.bounded 0#32) (s.raiseFault .boundZero)
  | firstDraw {b : Word} (nonzero : b ≠ 0#32) : CommandEffect s (.bounded b) (s.drawPass b 0)

/-- `exec` does what `CommandEffect` lists. -/
theorem CommandEffect.exec_eq {s t : State} {i : Instr} (effect : CommandEffect s i t)
    (clear : s.fault = false) : exec i s = .next t := by
  cases effect with
  | write notBounded => rw [exec_of_notBounded notBounded, unlessFaulted_of_clear clear]
  | zeroBound => simp [exec, execBounded, unlessFaulted_of_clear clear]
  | firstDraw nonzero => simp [exec, execBounded, unlessFaulted_of_clear clear, nonzero]

/-- Every command has an effect. -/
theorem exists_commandEffect (s : State) (i : Instr) : ∃ t, CommandEffect s i t := by
  by_cases h : ∃ b, i = .bounded b
  · obtain ⟨b, rfl⟩ := h
    by_cases hb : b = 0#32
    · subst hb
      exact ⟨_, .zeroBound⟩
    · exact ⟨_, .firstDraw hb⟩
  · exact ⟨_, .write (not_exists.mp h)⟩

theorem exec_eq_next_iff {s t : State} {i : Instr} (clear : s.fault = false) :
    exec i s = .next t ↔ CommandEffect s i t := by
  refine ⟨fun h => ?_, fun effect => effect.exec_eq clear⟩
  obtain ⟨u, effect⟩ := exists_commandEffect s i
  have hu : u = t := by simpa [effect.exec_eq clear] using h
  exact hu ▸ effect

/-! ### One step -/

/-- Everything a step that goes on can do: a reset; a draw of the BOUNDED in progress; the acceptance of a
word, which is refused, illegal or a command; an idle step. -/
inductive StepEffect (s : State) : State → Prop
  | reset (asserted : s.rstAsserted = true) : StepEffect s s.passRst.holdOffer.applyReset
  | draw {regs : BoundedRegs} (low : s.rstAsserted = false) (busy : s.busy = true)
      (held : s.draw = some regs) :
      StepEffect s (s.passRst.holdOffer.drawPass regs.sBound regs.sN)
  | refuse {w : CmdWord} (accepts : Accepts s w) (faulted : s.fault = true) :
      StepEffect s (accepted s).refuseFaulted
  | illegal {w : CmdWord} {op : Opcode} (accepts : Accepts s w) (clear : s.fault = false)
      (decodes : decode w = .illegal op) : StepEffect s ((accepted s).raiseFault .illegalOp)
  | command {w : CmdWord} {i : Instr} {t : State} (accepts : Accepts s w) (clear : s.fault = false)
      (decodes : decode w = .command i) (effect : CommandEffect (accepted s) i t) : StepEffect s t
  | idle (low : s.rstAsserted = false) (ready : s.busy = false) (noOffer : s.offeredWord = none) :
      StepEffect s s.passRst.holdOffer.idle

/-- Where the block accepts `w`, the step is the command cycle of `w`. -/
theorem step_of_accepts {s : State} {w : CmdWord} (h : Accepts s w) :
    step s = acceptCommand w (accepted s) := by
  obtain ⟨low, ready, offered⟩ := h
  simp [step, cycle, readyCycle, low, ready, offered, accepted]

/-- `step` does what `StepEffect` lists. -/
theorem StepEffect.step_eq {s t : State} (effect : StepEffect s t) : step s = .next t := by
  cases effect with
  | reset asserted => simp [step, cycle, asserted]
  | draw low busy held => simp [step, cycle, busyCycle, low, busy, held]
  | refuse accepts faulted =>
    have hf : (accepted s).fault = true := faulted
    simp [step_of_accepts accepts, acceptCommand, hf]
  | illegal accepts clear decodes =>
    have hf : (accepted s).fault = false := clear
    simp [step_of_accepts accepts, acceptCommand, hf, decodes]
  | command accepts clear decodes effect =>
    have hf : (accepted s).fault = false := clear
    simp [step_of_accepts accepts, acceptCommand, hf, decodes, effect.exec_eq hf]
  | idle low ready noOffer => simp [step, cycle, readyCycle, low, ready, noOffer]

/-- A step that goes on does nothing that `StepEffect` does not list. -/
theorem stepEffect_of_step {s t : State} (h : step s = .next t) : StepEffect s t := by
  have answer {u : State} (effect : StepEffect s u) : StepEffect s t := by
    have hu : u = t := by simpa [effect.step_eq] using h
    exact hu ▸ effect
  obtain ⟨asserted, -⟩ | ⟨-, -, -, stops⟩ | ⟨low, busy, regs, held, -⟩ |
    ⟨low, ready, w, offered, -⟩ | ⟨low, ready, noOffer, -⟩ := step_cases s
  · exact answer (.reset asserted)
  · simp [stops] at h
  · exact answer (.draw low busy held)
  · have accepts : Accepts s w := ⟨low, ready, offered⟩
    obtain ⟨faulted, -⟩ | ⟨clear, op, decodes, -⟩ | ⟨clear, i, decodes, -⟩ :=
      acceptCommand_cases w (accepted s)
    · exact answer (.refuse accepts faulted)
    · exact answer (.illegal accepts clear decodes)
    · obtain ⟨u, effect⟩ := exists_commandEffect (accepted s) i
      exact answer (.command accepts clear decodes effect)
  · exact answer (.idle low ready noOffer)

/-! ### The frame of one draw -/

/-- A rejected draw is held. -/
theorem drawPass_of_rejected {s : State} {b : Word}
    (h : drawRejected b (drawWord sourceParams s.state) = true) (n : Nat) :
    s.drawPass b n =
      (s.setState (nextTransition sourceParams s.state s.inc)).holdDraw
        ⟨b, drawWord sourceParams s.state, n + 1⟩ := by
  simp [State.drawPass, h]

/-- A draw that is not rejected completes its command. -/
theorem drawPass_of_taken {s : State} {b : Word}
    (h : drawRejected b (drawWord sourceParams s.state) = false) (n : Nat) :
    s.drawPass b n =
      ((s.setState (nextTransition sourceParams s.state s.inc)).setResult
        (drawHigh b (drawWord sourceParams s.state))).respond .ok := by
  simp [State.drawPass, h]

@[simp] theorem drawPass_inc (s : State) (b : Word) (n : Nat) : (s.drawPass b n).inc = s.inc := by
  obtain ⟨-, h⟩ | ⟨-, h⟩ := drawPass_cases s b n <;> simp [h]
@[simp] theorem drawPass_fault (s : State) (b : Word) (n : Nat) : (s.drawPass b n).fault = s.fault := by
  obtain ⟨-, h⟩ | ⟨-, h⟩ := drawPass_cases s b n <;> simp [h]
@[simp] theorem drawPass_fcode (s : State) (b : Word) (n : Nat) : (s.drawPass b n).fcode = s.fcode := by
  obtain ⟨-, h⟩ | ⟨-, h⟩ := drawPass_cases s b n <;> simp [h]
@[simp] theorem drawPass_cmdIn (s : State) (b : Word) (n : Nat) : (s.drawPass b n).cmdIn = s.cmdIn := by
  obtain ⟨-, h⟩ | ⟨-, h⟩ := drawPass_cases s b n <;> simp [h]
@[simp] theorem drawPass_rstIn (s : State) (b : Word) (n : Nat) : (s.drawPass b n).rstIn = s.rstIn := by
  obtain ⟨-, h⟩ | ⟨-, h⟩ := drawPass_cases s b n <;> simp [h]

/-- Only a draw left in progress moves the model's own tick. -/
theorem drawPass_busy_of_busyTick_ne {s : State} {b : Word} {n : Nat}
    (h : (s.drawPass b n).busyTick ≠ s.busyTick) : (s.drawPass b n).busy = true := by
  obtain ⟨-, held⟩ | ⟨-, taken⟩ := drawPass_cases s b n
  · simp [held]
  · simp [taken] at h

/-- Only a draw that completes its command writes `RESULT`, and it responds with it. -/
theorem drawPass_rsp_of_result_ne {s : State} {b : Word} {n : Nat}
    (h : (s.drawPass b n).result ≠ s.result) :
    (s.drawPass b n).rsp = some ⟨.ok, (s.drawPass b n).result⟩ := by
  obtain ⟨-, held⟩ | ⟨-, taken⟩ := drawPass_cases s b n
  · simp [held] at h
  · simp [taken]

end Sys2Proof.Machine
end

section
/-! CLAIM. The machine's invariant: it holds at reset and every step keeps it. One lemma per outcome that
`StepEffect` and `CommandEffect` list. -/

namespace Sys2Proof.Machine

/-! ### What each part of the invariant looks at -/

theorem FaultFlagsConsistent.of_eq {s t : State} (h : FaultFlagsConsistent s) (hfault : t.fault = s.fault)
    (hfcode : t.fcode = s.fcode) : FaultFlagsConsistent t := by
  unfold FaultFlagsConsistent
  rw [hfault, hfcode]
  exact h

theorem DrawConsistent.of_eq {s t : State} (h : DrawConsistent s) (hfault : t.fault = s.fault)
    (hbusy : t.busy = s.busy) (hdraw : t.draw = s.draw) : DrawConsistent t := by
  unfold DrawConsistent
  rw [hfault, hbusy, hdraw]
  exact h

theorem responseConsistent_of_none {s : State} (h : s.rsp = none) : ResponseConsistent s := by
  simp [ResponseConsistent, h]

/-- R24, R79, R81: while a BOUNDED is held, no fault is set and its bound is not zero. -/
theorem DrawConsistent.held {s : State} {regs : BoundedRegs} (h : DrawConsistent s)
    (held : s.draw = some regs) : s.fault = false ∧ regs.sBound ≠ 0#32 := by
  simp only [DrawConsistent, held] at h
  obtain ⟨-, clear, nonzero, -, -⟩ := h
  exact ⟨clear, nonzero⟩

/-! ### Each outcome is consistent -/

theorem consistent_applyReset (s : State) : Consistent s.applyReset :=
  ⟨⟨by simp, by simp⟩, rfl, trivial⟩

theorem consistent_respond {s : State} {st : RspStatus} (flags : FaultFlagsConsistent s)
    (status : st = .ok ↔ s.fault = false) : Consistent (s.respond st) :=
  ⟨flags, rfl, rfl, rfl, status⟩

theorem consistent_refuseFaulted {s : State} (flags : FaultFlagsConsistent s) (faulted : s.fault = true) :
    Consistent s.refuseFaulted :=
  consistent_respond flags (by simp [faulted])

theorem faultFlagsConsistent_raise (s : State) (c : FaultCode) :
    FaultFlagsConsistent { s with fault := true, fcode := c.bits } := by
  cases c <;> simp [FaultFlagsConsistent, FaultCode.bits]

theorem consistent_raiseFault (s : State) (c : FaultCode) : Consistent (s.raiseFault c) :=
  consistent_respond (faultFlagsConsistent_raise s c) (by cases c <;> simp [FaultCode.status])

/-- A rejected draw is held with its hidden registers; one that is not responds. -/
theorem consistent_drawPass {s : State} {b : Word} (flags : FaultFlagsConsistent s) (clear : s.fault = false)
    (nonzero : b ≠ 0#32) (n : Nat) : Consistent (s.drawPass b n) := by
  obtain ⟨rejected, h⟩ | ⟨-, h⟩ := drawPass_cases s b n
  · rw [h]
    exact ⟨flags, ⟨rfl, clear, nonzero, Nat.le_add_left 1 n, rejected⟩, trivial⟩
  · rw [h]
    exact consistent_respond flags (by simp [clear])

theorem CommandEffect.consistent {s t : State} {i : Instr} (effect : CommandEffect s i t)
    (flags : FaultFlagsConsistent s) (clear : s.fault = false) : Consistent t := by
  cases effect with
  | write => exact consistent_respond (flags.of_eq (by simp) (by simp)) (by simp [clear])
  | zeroBound => exact consistent_raiseFault s .boundZero
  | firstDraw nonzero => exact consistent_drawPass flags clear nonzero 0

theorem StepEffect.consistent {s t : State} (effect : StepEffect s t) (h : Consistent s) : Consistent t := by
  obtain ⟨flags, draw, -⟩ := h
  cases effect with
  | reset => exact consistent_applyReset _
  | draw _ _ held =>
    obtain ⟨clear, nonzero⟩ := draw.held held
    exact consistent_drawPass (flags.of_eq (by simp) (by simp)) (by simp [clear]) nonzero _
  | refuse _ faulted => exact consistent_refuseFaulted (s := accepted s) flags faulted
  | illegal => exact consistent_raiseFault _ _
  | command _ clear _ effect => exact effect.consistent (s := accepted s) flags clear
  | idle =>
    exact ⟨flags.of_eq (by simp) (by simp), draw.of_eq (by simp) (by simp) (by simp),
      responseConsistent_of_none rfl⟩

/-! ### The statements -/

/-- Settles O43: every outcome of a step is consistent, given the flags and the BOUNDED held before it. -/
theorem consistencyIsKept : Obligations.ConsistencyIsKept := by
  unfold Obligations.ConsistencyIsKept
  intro s t consistent h
  exact (stepEffect_of_step h).consistent consistent

/-- Settles O44: the base case of the invariant, since reset leaves the reset state as it is. -/
theorem resetIsConsistent : Obligations.ResetIsConsistent :=
  consistent_applyReset State.reset

/-- Settles O40: R27's table, value by value. -/
theorem resetValues : Obligations.ResetValues :=
  ⟨rfl, rfl, rfl, rfl, rfl, rfl, rfl⟩

end Sys2Proof.Machine
end

section
/-! CLAIM. `RESULT` influences nothing but itself (R14, R67 (c)): every operation of the machine keeps two
states alike but for `RESULT` and the data of the response, hence so does every step and every run. -/

namespace Sys2Proof.Machine

/-! ### Each operation keeps the relation -/

theorem SameButResult.setState {s t : State} (h : SameButResult s t) (v : Word) :
    SameButResult (s.setState v) (t.setState v) := by
  simp_all [SameButResult]

theorem SameButResult.setInc {s t : State} (h : SameButResult s t) (v : Word) :
    SameButResult (s.setInc v) (t.setInc v) := by
  simp_all [SameButResult]

theorem SameButResult.setResult {s t : State} (h : SameButResult s t) (v w : Word) :
    SameButResult (s.setResult v) (t.setResult w) :=
  h

theorem SameButResult.respond {s t : State} (h : SameButResult s t) (st : RspStatus) :
    SameButResult (s.respond st) (t.respond st) := by
  simp_all [SameButResult]

theorem SameButResult.raiseFault {s t : State} (h : SameButResult s t) (c : FaultCode) :
    SameButResult (s.raiseFault c) (t.raiseFault c) := by
  simp_all [SameButResult]

theorem SameButResult.applyReset {s t : State} (h : SameButResult s t) :
    SameButResult s.applyReset t.applyReset := by
  simp_all [SameButResult]

theorem SameButResult.holdDraw {s t : State} (h : SameButResult s t) (regs : BoundedRegs) :
    SameButResult (s.holdDraw regs) (t.holdDraw regs) := by
  simp_all [SameButResult]

theorem SameButResult.passRst {s t : State} (h : SameButResult s t) :
    SameButResult s.passRst t.passRst := by
  simp_all [SameButResult]

theorem SameButResult.takeOffer {s t : State} (h : SameButResult s t) :
    SameButResult s.takeOffer t.takeOffer := by
  simp_all [SameButResult]

theorem SameButResult.idle {s t : State} (h : SameButResult s t) : SameButResult s.idle t.idle := by
  simp_all [SameButResult]

theorem holdOffer_cmdIn_congr {s t : State} (h : s.cmdIn = t.cmdIn) :
    s.holdOffer.cmdIn = t.holdOffer.cmdIn := by
  unfold State.holdOffer
  rw [← h]
  split <;> simp_all

theorem SameButResult.holdOffer {s t : State} (h : SameButResult s t) :
    SameButResult s.holdOffer t.holdOffer := by
  obtain ⟨hstate, hinc, hfault, hfcode, hbusy, hdraw, hstatus, hcmdIn, hrstIn, htick⟩ := h
  simp_all [SameButResult, holdOffer_cmdIn_congr hcmdIn]

theorem SameButResult.accepted {s t : State} (h : SameButResult s t) :
    SameButResult (accepted s) (accepted t) :=
  h.passRst.takeOffer

/-- The registers an operation reads are the same in both states. -/
theorem SameButResult.generator_eq {s t : State} (h : SameButResult s t) :
    s.state = t.state ∧ s.inc = t.inc := by
  obtain ⟨hstate, hinc, -⟩ := h
  exact ⟨hstate, hinc⟩

theorem SameButResult.fault_eq {s t : State} (h : SameButResult s t) : s.fault = t.fault := by
  obtain ⟨-, -, hfault, -⟩ := h
  exact hfault

theorem SameButResult.busy_eq {s t : State} (h : SameButResult s t) : s.busy = t.busy := by
  obtain ⟨-, -, -, -, hbusy, -⟩ := h
  exact hbusy

theorem SameButResult.draw_eq {s t : State} (h : SameButResult s t) : s.draw = t.draw := by
  obtain ⟨-, -, -, -, -, hdraw, -⟩ := h
  exact hdraw

theorem SameButResult.rstAsserted_eq {s t : State} (h : SameButResult s t) :
    s.rstAsserted = t.rstAsserted := by
  obtain ⟨-, -, -, -, -, -, -, -, hrstIn, -⟩ := h
  simp [State.rstAsserted, hrstIn]

theorem SameButResult.offeredWord_eq {s t : State} (h : SameButResult s t) :
    s.offeredWord = t.offeredWord := by
  obtain ⟨-, -, -, -, -, -, -, hcmdIn, -, -⟩ := h
  simp [State.offeredWord, hcmdIn]

theorem SameButResult.accepts_iff {s t : State} (h : SameButResult s t) (w : CmdWord) :
    Accepts s w ↔ Accepts t w := by
  simp only [Accepts, h.rstAsserted_eq, h.busy_eq, h.offeredWord_eq]

/-! ### Draws and commands keep it -/

theorem SameButResult.drawPass {s t : State} (h : SameButResult s t) (b : Word) (n : Nat) :
    SameButResult (s.drawPass b n) (t.drawPass b n) := by
  obtain ⟨hstate, hinc⟩ := h.generator_eq
  cases rejected : drawRejected b (drawWord sourceParams t.state)
  · rw [drawPass_of_taken (hstate ▸ rejected), drawPass_of_taken rejected, hstate, hinc]
    exact ((h.setState _).setResult _ _).respond .ok
  · rw [drawPass_of_rejected (hstate ▸ rejected), drawPass_of_rejected rejected, hstate, hinc]
    exact (h.setState _).holdDraw _

theorem SameButResult.registerWrites {s t : State} (h : SameButResult s t) (i : Instr) :
    SameButResult (registerWrites i s) (registerWrites i t) := by
  obtain ⟨hstate, hinc⟩ := h.generator_eq
  cases i with
  | nop => exact h
  | seed a b => exact (h.setState _).setInc _
  | load a b => exact (h.setState a).setInc b
  | step =>
    simp only [Machine.registerWrites, hstate, hinc]
    exact h.setState _
  | next =>
    simp only [Machine.registerWrites, hstate, hinc]
    exact (h.setResult _ _).setState _
  | jump d =>
    simp only [Machine.registerWrites, hstate, hinc]
    exact h.setState _
  | bounded b => exact h

theorem SameButResult.commandEffect {s t s' : State} {i : Instr} (h : SameButResult s t)
    (effect : CommandEffect s i s') : ∃ t', CommandEffect t i t' ∧ SameButResult s' t' := by
  cases effect with
  | write notBounded => exact ⟨_, .write notBounded, (h.registerWrites i).respond .ok⟩
  | zeroBound => exact ⟨_, .zeroBound, h.raiseFault .boundZero⟩
  | firstDraw nonzero => exact ⟨_, .firstDraw nonzero, h.drawPass _ 0⟩

/-! ### Steps and runs keep it -/

theorem SameButResult.stepEffect {s t s' : State} (h : SameButResult s t) (effect : StepEffect s s') :
    ∃ t', StepEffect t t' ∧ SameButResult s' t' := by
  cases effect with
  | reset asserted =>
    exact ⟨_, .reset (h.rstAsserted_eq ▸ asserted), h.passRst.holdOffer.applyReset⟩
  | draw low busy held =>
    exact ⟨_, .draw (h.rstAsserted_eq ▸ low) (h.busy_eq ▸ busy) (h.draw_eq ▸ held),
      h.passRst.holdOffer.drawPass _ _⟩
  | refuse accepts faulted =>
    exact ⟨_, .refuse ((h.accepts_iff _).mp accepts) (h.fault_eq ▸ faulted),
      h.accepted.respond .errFaulted⟩
  | illegal accepts clear decodes =>
    exact ⟨_, .illegal ((h.accepts_iff _).mp accepts) (h.fault_eq ▸ clear) decodes,
      h.accepted.raiseFault .illegalOp⟩
  | command accepts clear decodes effect =>
    obtain ⟨t', effect', same⟩ := h.accepted.commandEffect effect
    exact ⟨t', .command ((h.accepts_iff _).mp accepts) (h.fault_eq ▸ clear) decodes effect', same⟩
  | idle low ready noOffer =>
    exact ⟨_, .idle (h.rstAsserted_eq ▸ low) (h.busy_eq ▸ ready) (h.offeredWord_eq ▸ noOffer),
      h.passRst.holdOffer.idle⟩

/-- Settles O49, by induction on the number of steps. -/
theorem resultInfluencesNothingElse : Obligations.ResultInfluencesNothingElse := by
  unfold Obligations.ResultInfluencesNothingElse
  intro k
  induction k with
  | zero =>
    rintro s t s' same rfl
    exact ⟨t, rfl, same⟩
  | succ k ih =>
    rintro s t s' same ⟨u, first, rest⟩
    obtain ⟨v, effect, same'⟩ := same.stepEffect (stepEffect_of_step first)
    obtain ⟨t', rest', same''⟩ := ih u v s' same' rest
    exact ⟨t', ⟨v, effect.step_eq, rest'⟩, same''⟩

end Sys2Proof.Machine
end

section
/-! CLAIM. Who writes `INC` and `RESULT` (R17, R19), and the frame of every command (R14, R21). -/

namespace Sys2Proof.Machine

/-! ### The frame of a command's effect -/

theorem CommandEffect.inc_eq {s t : State} {i : Instr} (effect : CommandEffect s i t)
    (notSeed : ∀ a b, i ≠ .seed a b) (notLoad : ∀ a b, i ≠ .load a b) : t.inc = s.inc := by
  cases effect with
  | write => simp [registerWrites_inc notSeed notLoad]
  | zeroBound => rfl
  | firstDraw => simp

theorem CommandEffect.result_eq {s t : State} {i : Instr} (effect : CommandEffect s i t)
    (notNext : i ≠ .next) (notBounded : ∀ b, i ≠ .bounded b) : t.result = s.result := by
  cases effect with
  | write => simp [registerWrites_result notNext]
  | zeroBound => exact absurd rfl (notBounded _)
  | firstDraw => exact absurd rfl (notBounded _)

theorem CommandEffect.inputs_eq {s t : State} {i : Instr} (effect : CommandEffect s i t) :
    t.cmdIn = s.cmdIn ∧ t.rstIn = s.rstIn := by
  cases effect with
  | write => simp
  | zeroBound => exact ⟨rfl, rfl⟩
  | firstDraw => simp

theorem CommandEffect.busy_of_busyTick_ne {s t : State} {i : Instr} (effect : CommandEffect s i t)
    (h : t.busyTick ≠ s.busyTick) : ∃ b, i = .bounded b ∧ t.busy = true := by
  cases effect with
  | write => simp at h
  | zeroBound => simp at h
  | firstDraw => exact ⟨_, rfl, drawPass_busy_of_busyTick_ne h⟩

theorem CommandEffect.completes {s t : State} {i : Instr} (effect : CommandEffect s i t)
    (notBounded : ∀ b, i ≠ .bounded b) : t.busy = false ∧ t.draw = none := by
  cases effect with
  | write => exact ⟨rfl, rfl⟩
  | zeroBound => exact absurd rfl (notBounded _)
  | firstDraw => exact absurd rfl (notBounded _)

theorem CommandEffect.flags_eq {s t : State} {i : Instr} (effect : CommandEffect s i t)
    (notZeroBound : i ≠ .bounded 0#32) : t.fault = s.fault ∧ t.fcode = s.fcode := by
  cases effect with
  | write => simp
  | zeroBound => exact absurd rfl notZeroBound
  | firstDraw => simp

theorem CommandEffect.state_eq_of_nop {s t : State} (effect : CommandEffect s .nop t) :
    t.state = s.state := by
  cases effect with
  | write => rfl

/-- Settles O48, part by part from the frame of a command's effect. -/
theorem frameOfEveryCommand : Obligations.FrameOfEveryCommand := by
  unfold Obligations.FrameOfEveryCommand
  intro i s t clear h
  have effect : CommandEffect s i t := (exec_eq_next_iff clear).mp h
  obtain ⟨hcmdIn, hrstIn⟩ := effect.inputs_eq
  refine ⟨hcmdIn, hrstIn, effect.busy_of_busyTick_ne, effect.inc_eq, ?_, effect.result_eq, ?_,
    effect.flags_eq⟩
  · rintro rfl
    exact effect.state_eq_of_nop
  · intro notBounded
    obtain ⟨hfault, hfcode⟩ := effect.flags_eq (notBounded 0#32)
    obtain ⟨hbusy, hdraw⟩ := effect.completes notBounded
    exact ⟨hfault, hfcode, hbusy, hdraw⟩

/-! ### Who writes `INC` -/

theorem CommandEffect.seed_or_load_of_inc_ne {s t : State} {i : Instr} (effect : CommandEffect s i t)
    (h : t.inc ≠ s.inc) : ∃ a b, i = .seed a b ∨ i = .load a b := by
  by_contra neither
  push Not at neither
  exact h (effect.inc_eq (fun a b => (neither a b).1) (fun a b => (neither a b).2))

/-- Settles O46: of the outcomes of a step, only a reset and a command can change `INC`. -/
theorem onlySeedAndLoadWriteInc : Obligations.OnlySeedAndLoadWriteInc := by
  unfold Obligations.OnlySeedAndLoadWriteInc
  intro s t h changed
  cases stepEffect_of_step h with
  | reset asserted => exact .inl asserted
  | draw => simp at changed
  | refuse => exact absurd rfl changed
  | illegal => exact absurd rfl changed
  | command accepts clear decodes effect =>
    obtain ⟨a, b, hi⟩ := effect.seed_or_load_of_inc_ne (s := accepted s) changed
    exact .inr ⟨_, a, b, accepts, clear, by simpa [decodes] using hi⟩
  | idle => simp at changed

/-! ### Who writes `RESULT` -/

/-- R19: a command that changes `RESULT` is NEXT or a BOUNDED with a non-zero bound, and responds with it. -/
theorem CommandEffect.responds_of_result_ne {s t : State} {i : Instr} (effect : CommandEffect s i t)
    (h : t.result ≠ s.result) :
    t.rsp = some ⟨.ok, t.result⟩ ∧ (i = .next ∨ ∃ b, b ≠ 0#32 ∧ i = .bounded b) := by
  cases effect with
  | write notBounded =>
    have isNext : i = .next := by
      by_contra notNext
      exact h (by simp [registerWrites_result notNext])
    exact ⟨rfl, .inl isNext⟩
  | zeroBound => exact absurd rfl h
  | firstDraw nonzero => exact ⟨drawPass_rsp_of_result_ne h, .inr ⟨_, nonzero, rfl⟩⟩

/-- R47: `respond` shows `RESULT` as the command leaves it. -/
theorem respond_rsp_data {s : State} {st : RspStatus} {r : Response} (h : (s.respond st).rsp = some r) :
    r.data = (s.respond st).result := by
  obtain rfl : ⟨st, s.result⟩ = r := by simpa using h
  rfl

theorem drawPass_rsp_data {s : State} {b : Word} {n : Nat} {r : Response}
    (h : (s.drawPass b n).rsp = some r) : r.data = (s.drawPass b n).result := by
  obtain ⟨-, held⟩ | ⟨-, taken⟩ := drawPass_cases s b n
  · simp [held] at h
  · rw [taken] at h ⊢
    exact respond_rsp_data h

theorem CommandEffect.rsp_data {s t : State} {i : Instr} {r : Response} (effect : CommandEffect s i t)
    (h : t.rsp = some r) : r.data = t.result := by
  cases effect with
  | write => exact respond_rsp_data h
  | zeroBound => exact respond_rsp_data h
  | firstDraw => exact drawPass_rsp_data h

theorem StepEffect.rsp_data {s t : State} {r : Response} (effect : StepEffect s t) (h : t.rsp = some r) :
    r.data = t.result := by
  cases effect with
  | reset => simp at h
  | draw => exact drawPass_rsp_data h
  | refuse => exact respond_rsp_data h
  | illegal => exact respond_rsp_data h
  | command _ _ _ effect => exact effect.rsp_data h
  | idle => simp at h

/-- Settles O47: of the outcomes of a step, only a reset, a draw and a command can change `RESULT`. -/
theorem onlyNextAndBoundedWriteResult : Obligations.OnlyNextAndBoundedWriteResult := by
  unfold Obligations.OnlyNextAndBoundedWriteResult
  refine ⟨fun s t h changed => ?_, fun s t r h => (stepEffect_of_step h).rsp_data⟩
  cases stepEffect_of_step h with
  | reset asserted => exact .inl asserted
  | draw low busy held =>
    exact .inr ⟨drawPass_rsp_of_result_ne (by simpa using changed), .inr ⟨busy, by simp [held]⟩⟩
  | refuse => exact absurd rfl changed
  | illegal => exact absurd rfl changed
  | command accepts clear decodes effect =>
    obtain ⟨shown, hi⟩ := effect.responds_of_result_ne (s := accepted s) changed
    exact .inr ⟨shown, .inl ⟨_, accepts, clear, by simpa [decodes] using hi⟩⟩
  | idle => simp at changed

end Sys2Proof.Machine
end

section
/-! CLAIM. The output ports (R20, R22, R38, R43) and the serialisation of the exported pair (R23, R30). -/

namespace Sys2Proof.Machine

/-! ### The ports -/

/-- R20: the fields of `status_o`. -/
theorem statusByte_fields (fcode : BitVec 2) (fault busy : Bool) :
    (statusByte fcode fault busy).getLsbD 0 = busy ∧ (statusByte fcode fault busy).getLsbD 1 = fault ∧
      (statusByte fcode fault busy).extractLsb' 2 2 = fcode ∧
      (statusByte fcode fault busy).extractLsb' 4 4 = 0#4 := by
  revert fcode fault busy
  decide

/-- R22: while `BUSY = 0` the data ports show the registers. -/
theorem dataPorts_of_ready {s : State} (ready : s.busy = false) :
    s.stateO = s.state ∧ s.incO = s.inc ∧ s.resultO = s.result := by
  simp [State.stateO, State.incO, State.resultO, ready]

/-- R38, R43: the response port shows the response held. -/
theorem responsePort_of_some {s : State} {st : RspStatus} {data : Word} (h : s.rsp = some ⟨st, data⟩) :
    s.rspValid = true ∧ s.rspStatus = some st.bits ∧ s.rspData = some data := by
  simp [State.rspValid, State.rspStatus, State.rspData, h]

/-- Settles O42, port by port. -/
theorem portsShowTheRegisters : Obligations.PortsShowTheRegisters := by
  unfold Obligations.PortsShowTheRegisters
  refine ⟨fun s => statusByte_fields s.fcode s.fault s.busy, fun s => dataPorts_of_ready,
    fun s hidden => by simp [State.rspValid, hidden], fun s data => ?_⟩
  exact ⟨responsePort_of_some, responsePort_of_some, responsePort_of_some, responsePort_of_some⟩

/-! ### The serialisation -/

/-- A word is its four bytes, joined from the least significant up. -/
theorem bytesWord_bytes (w : Word) :
    bytesWord .little (w.extractLsb' 0 8) (w.extractLsb' 8 8) (w.extractLsb' 16 8) (w.extractLsb' 24 8) = w := by
  have low2 : w.extractLsb' 8 8 ++ w.extractLsb' 0 8 = w.extractLsb' 0 16 :=
    BitVec.extractLsb'_append_extractLsb'_eq_extractLsb' rfl
  have low3 : w.extractLsb' 16 8 ++ w.extractLsb' 0 16 = w.extractLsb' 0 24 :=
    BitVec.extractLsb'_append_extractLsb'_eq_extractLsb' rfl
  have all4 : w.extractLsb' 24 8 ++ w.extractLsb' 0 24 = w.extractLsb' 0 32 :=
    BitVec.extractLsb'_append_extractLsb'_eq_extractLsb' rfl
  calc bytesWord .little (w.extractLsb' 0 8) (w.extractLsb' 8 8) (w.extractLsb' 16 8) (w.extractLsb' 24 8)
    _ = w.extractLsb' 24 8 ++ (w.extractLsb' 16 8 ++ (w.extractLsb' 8 8 ++ w.extractLsb' 0 8)) := rfl
    _ = w.extractLsb' 0 32 := by rw [low2, low3, all4]
    _ = w := BitVec.extractLsb'_eq_self

/-- Reading back undoes writing: both orders come down to a word being its four bytes. -/
theorem deserialise_serialise (order : ByteOrder) (pair : Word × Word) :
    deserialise order (serialise order pair) = some pair := by
  have words := congrArg₂ (fun state inc => some (state, inc)) (bytesWord_bytes pair.1) (bytesWord_bytes pair.2)
  cases order with
  | little => exact words
  | big => exact words

/-- R8: the bytes of a word in the little-endian order, from the least significant up. -/
theorem wordBytes_little_toNat (w : Word) :
    (wordBytes .little w).map (·.toNat) =
      [w.toNat % 2 ^ 8, w.toNat / 2 ^ 8 % 2 ^ 8, w.toNat / 2 ^ 16 % 2 ^ 8, w.toNat / 2 ^ 24] := by
  have top : w.toNat / 2 ^ 24 % 2 ^ 8 = w.toNat / 2 ^ 24 := by omega
  simpa [wordBytes, BitVec.extractLsb'_toNat, Nat.shiftRight_eq_div_pow] using top

/-- R8: the big-endian order is the little-endian one, reversed. -/
theorem wordBytes_big (w : Word) : wordBytes .big w = (wordBytes .little w).reverse :=
  rfl

theorem wordBytes_big_toNat (w : Word) :
    (wordBytes .big w).map (·.toNat) =
      [w.toNat / 2 ^ 24, w.toNat / 2 ^ 16 % 2 ^ 8, w.toNat / 2 ^ 8 % 2 ^ 8, w.toNat % 2 ^ 8] := by
  rw [wordBytes_big, List.map_reverse, wordBytes_little_toNat]
  rfl

/-- Settles O50, from the round trip and the bytes of one word. -/
theorem serialisationRoundTrip : Obligations.SerialisationRoundTrip := by
  unfold Obligations.SerialisationRoundTrip
  refine ⟨deserialise_serialise, fun state inc => ⟨?_, ?_⟩⟩
  · simp only [serialise, List.map_append, wordBytes_big_toNat, List.cons_append, List.nil_append]
  · simp only [serialise, List.map_append, wordBytes_little_toNat, List.cons_append, List.nil_append]

end Sys2Proof.Machine
end

section
/-! SUPPORT. A state that holds the BOUNDED it is busy with always has a next state, and a command answers
exactly when it is complete; both follow from the outcomes that `StepEffect` and `CommandEffect` list. -/

namespace Sys2Proof.Machine

/-- A step stops only where `BUSY = 1` and no BOUNDED is held (log entry 6). -/
theorem exists_stepEffect {s : State} (goes : s.busy = true → s.draw.isSome) : ∃ t, StepEffect s t := by
  obtain ⟨-, h⟩ | ⟨-, busy, unheld, -⟩ | ⟨-, -, regs, -, h⟩ | ⟨low, ready, w, offered, -⟩ |
    ⟨-, -, -, h⟩ := step_cases s
  · exact ⟨_, stepEffect_of_step h⟩
  · simp [unheld, busy] at goes
  · exact ⟨_, stepEffect_of_step h⟩
  · have accepts : Accepts s w := ⟨low, ready, offered⟩
    obtain ⟨faulted, -⟩ | ⟨clear, op, decodes, -⟩ | ⟨clear, i, decodes, -⟩ :=
      acceptCommand_cases w (accepted s)
    · exact ⟨_, .refuse accepts faulted⟩
    · exact ⟨_, .illegal accepts clear decodes⟩
    · obtain ⟨t, effect⟩ := exists_commandEffect (accepted s) i
      exact ⟨t, .command accepts clear decodes effect⟩
  · exact ⟨_, stepEffect_of_step h⟩

theorem Accepts.ready {s : State} {w : CmdWord} (h : Accepts s w) : s.busy = false := by
  obtain ⟨-, ready, -⟩ := h
  exact ready

/-- A state has one step only. -/
theorem StepEffect.unique {s t u : State} (ht : StepEffect s t) (hu : StepEffect s u) : t = u := by
  simpa [ht.step_eq] using hu.step_eq

/-- R47, R65: a draw answers, or leaves its BOUNDED in progress. -/
theorem drawPass_answers_or_busy (s : State) (b : Word) (n : Nat) :
    (s.drawPass b n).rsp.toList.length + (s.drawPass b n).busy.toNat = 1 := by
  obtain ⟨-, h⟩ | ⟨-, h⟩ := drawPass_cases s b n <;> simp [h]

/-- R46, R47: a command answers in the step that accepts it, or is a BOUNDED left in progress. -/
theorem CommandEffect.answers_or_busy {s t : State} {i : Instr} (effect : CommandEffect s i t) :
    t.rsp.toList.length + t.busy.toNat = 1 := by
  cases effect with
  | write => rfl
  | zeroBound => rfl
  | firstDraw => exact drawPass_answers_or_busy s _ 0

theorem ready_of_answers {t : State} {r : Response} (once : t.rsp.toList.length + t.busy.toNat = 1)
    (shown : t.rsp = some r) : t.busy = false := by
  simpa [shown] using once

/-- R47: a response is shown only when its command is complete. -/
theorem StepEffect.ready_of_rsp {s t : State} {r : Response} (effect : StepEffect s t)
    (shown : t.rsp = some r) : t.busy = false := by
  cases effect with
  | reset => rfl
  | draw => exact ready_of_answers (drawPass_answers_or_busy _ _ _) shown
  | refuse => rfl
  | illegal => rfl
  | command _ _ _ effect => exact ready_of_answers effect.answers_or_busy shown
  | idle => simp at shown

end Sys2Proof.Machine
end

section
/-! CLAIM. A block that loads an exported pair goes on as the exporting one (R37). `Twin` compares the runs:
the two states agree in everything a step reads to decide what it does next, which leaves out `RESULT`, `FCODE`,
the response shown, the model's own tick, and the hidden registers of an idle block. `ResultsAgree` is what
a NEXT or a BOUNDED adds, and every later step keeps it. -/

namespace Sys2Proof.Machine

/-- Two states that agree in the generator, in `FAULT` and `BUSY`, in the BOUNDED in progress, if there is
one, and in the inputs to come. -/
structure Twin (s t : State) : Prop where
  state : s.state = t.state
  inc : s.inc = t.inc
  fault : s.fault = t.fault
  busy : s.busy = t.busy
  draw : s.busy = true → ∃ regs, s.draw = some regs ∧ t.draw = some regs
  cmdIn : s.cmdIn = t.cmdIn
  rstIn : s.rstIn = t.rstIn

/-- What one step leaves of twins: twins, whose responses have the same status. -/
structure SameOutcome (s t : State) : Prop extends Twin s t where
  status : s.rsp.map (·.status) = t.rsp.map (·.status)

/-- `RESULT` is the same in two states, unless a BOUNDED is in progress and has yet to write it. -/
def ResultsAgree (s t : State) : Prop :=
  s.busy = false → s.result = t.result

/-- The commands that write `RESULT` whatever it held: NEXT, and BOUNDED where it does not fault (R61, R65). -/
def WritesResult (i : Instr) : Prop :=
  i = .next ∨ ∃ b, b ≠ 0#32 ∧ i = .bounded b

/-! ### Each operation keeps twins -/

section
variable {s t : State}

theorem Twin.respond (h : Twin s t) (st : RspStatus) : SameOutcome (s.respond st) (t.respond st) :=
  { h with busy := rfl, draw := nofun, status := rfl }

theorem Twin.raiseFault (h : Twin s t) (c : FaultCode) : SameOutcome (s.raiseFault c) (t.raiseFault c) :=
  { h with fault := rfl, busy := rfl, draw := nofun, status := rfl }

theorem Twin.applyReset (h : Twin s t) : SameOutcome s.applyReset t.applyReset :=
  { h with state := rfl, inc := rfl, fault := rfl, busy := rfl, draw := nofun, status := rfl }

theorem Twin.idle (h : Twin s t) : SameOutcome s.idle t.idle :=
  { h with status := rfl }

theorem Twin.passRst (h : Twin s t) : Twin s.passRst t.passRst :=
  { h with rstIn := congrArg List.tail h.rstIn }

theorem Twin.accepted (h : Twin s t) : Twin (accepted s) (accepted t) :=
  { h.passRst with cmdIn := congrArg List.tail h.cmdIn }

theorem Twin.holdOffer (h : Twin s t) : Twin s.holdOffer t.holdOffer where
  state := by simpa using h.state
  inc := by simpa using h.inc
  fault := by simpa using h.fault
  busy := by simpa using h.busy
  draw := by simpa using h.draw
  cmdIn := holdOffer_cmdIn_congr h.cmdIn
  rstIn := by simpa using h.rstIn

theorem Twin.rstAsserted_eq (h : Twin s t) : s.rstAsserted = t.rstAsserted := by
  simp [State.rstAsserted, h.rstIn]

theorem Twin.offeredWord_eq (h : Twin s t) : s.offeredWord = t.offeredWord := by
  simp [State.offeredWord, h.cmdIn]

theorem Twin.accepts (h : Twin s t) {w : CmdWord} (accepts : Accepts s w) : Accepts t w := by
  simpa only [Accepts, h.rstAsserted_eq, h.busy, h.offeredWord_eq] using accepts

theorem Twin.registerWrites (h : Twin s t) (i : Instr) :
    Twin (registerWrites i s) (registerWrites i t) := by
  cases i with
  | nop | bounded => exact h
  | seed | load => exact { h with state := rfl, inc := rfl }
  | step | next | jump => exact { h with state := by simp [Machine.registerWrites, h.state, h.inc] }

theorem Twin.registerWrites_result (h : Twin s t) {i : Instr} (agree : s.result = t.result ∨ i = .next) :
    (Machine.registerWrites i s).result = (Machine.registerWrites i t).result := by
  by_cases isNext : i = .next
  · simp [isNext, Machine.registerWrites, h.state]
  · rw [Machine.registerWrites_result isNext, Machine.registerWrites_result isNext]
    exact agree.resolve_right isNext

/-- A draw depends on `STATE` and `INC` only, and writes `RESULT` where it completes its command. -/
theorem Twin.drawPass (h : Twin s t) (b : Word) (n : Nat) :
    SameOutcome (s.drawPass b n) (t.drawPass b n) ∧ ResultsAgree (s.drawPass b n) (t.drawPass b n) := by
  have moved (v : Word) : Twin (s.setState v) (t.setState v) := { h with state := rfl }
  cases rejected : drawRejected b (drawWord sourceParams t.state)
  · rw [drawPass_of_taken (h.state ▸ rejected), drawPass_of_taken rejected, h.state, h.inc]
    exact ⟨{ moved _ with busy := rfl, draw := nofun, status := rfl }, fun _ => rfl⟩
  · rw [drawPass_of_rejected (h.state ▸ rejected), drawPass_of_rejected rejected, h.state, h.inc]
    exact ⟨{ moved _ with busy := rfl, draw := fun _ => ⟨_, rfl, rfl⟩, status := rfl }, nofun⟩

/-- A command leaves twins, with the same `RESULT` if it was the same before or the command writes it. -/
theorem Twin.commandEffect (h : Twin s t) {s' : State} {i : Instr} (effect : CommandEffect s i s') :
    ∃ t', CommandEffect t i t' ∧ SameOutcome s' t' ∧
      (s.result = t.result ∨ WritesResult i → ResultsAgree s' t') := by
  cases effect with
  | write notBounded =>
    refine ⟨_, .write notBounded, (h.registerWrites i).respond .ok, fun agree _ => ?_⟩
    refine h.registerWrites_result (agree.imp_right ?_)
    rintro (isNext | ⟨b, -, isBounded⟩)
    · exact isNext
    · exact absurd isBounded (notBounded b)
  | zeroBound =>
    refine ⟨_, .zeroBound, h.raiseFault .boundZero, fun agree _ => agree.resolve_right ?_⟩
    simp [WritesResult]
  | firstDraw nonzero =>
    obtain ⟨same, agree⟩ := h.drawPass _ 0
    exact ⟨_, .firstDraw nonzero, same, fun _ => agree⟩

/-! ### Steps and runs keep twins -/

/-- Twins step to twins with the same status shown, and keep the agreement of their results. -/
theorem Twin.stepEffect (h : Twin s t) {s' : State} (effect : StepEffect s s') :
    ∃ t', StepEffect t t' ∧ SameOutcome s' t' ∧ (ResultsAgree s t → ResultsAgree s' t') := by
  cases effect with
  | reset asserted =>
    exact ⟨_, .reset (h.rstAsserted_eq ▸ asserted), h.passRst.holdOffer.applyReset, fun _ _ => rfl⟩
  | draw low busy held =>
    obtain ⟨regs, heldS, heldT⟩ := h.draw busy
    obtain rfl : regs = _ := Option.some.inj (heldS.symm.trans held)
    obtain ⟨same, agree⟩ := h.passRst.holdOffer.drawPass regs.sBound regs.sN
    exact ⟨_, .draw (h.rstAsserted_eq ▸ low) (h.busy ▸ busy) heldT, same, fun _ => agree⟩
  | refuse accepts faulted =>
    exact ⟨_, .refuse (h.accepts accepts) (h.fault ▸ faulted), h.accepted.respond .errFaulted,
      fun agree _ => agree accepts.ready⟩
  | illegal accepts clear decodes =>
    exact ⟨_, .illegal (h.accepts accepts) (h.fault ▸ clear) decodes, h.accepted.raiseFault .illegalOp,
      fun agree _ => agree accepts.ready⟩
  | command accepts clear decodes effect =>
    obtain ⟨t', effect', same, agree⟩ := h.accepted.commandEffect effect
    exact ⟨t', .command (h.accepts accepts) (h.fault ▸ clear) decodes effect', same,
      fun before => agree (.inl (before accepts.ready))⟩
  | idle low ready noOffer =>
    exact ⟨_, .idle (h.rstAsserted_eq ▸ low) (h.busy ▸ ready) (h.offeredWord_eq ▸ noOffer),
      h.passRst.holdOffer.idle, fun agree _ => by simpa using agree ready⟩

theorem Twin.exists_stepEffect (h : Twin s t) : ∃ s', StepEffect s s' := by
  refine Machine.exists_stepEffect fun busy => ?_
  obtain ⟨regs, held, -⟩ := h.draw busy
  simp [held]

/-- Where the results agree after a step, the responses it shows are the same, data included (R47). -/
theorem SameOutcome.rsp_eq {s' t' : State} (same : SameOutcome s' t') (agree : ResultsAgree s' t')
    (left : StepEffect s s') (right : StepEffect t t') : s'.rsp = t'.rsp := by
  have status := same.status
  cases hs : s'.rsp with
  | none => simpa [hs, eq_comm] using status
  | some r =>
    cases ht : t'.rsp with
    | none => simp [hs, ht] at status
    | some q =>
      have sameStatus : r.status = q.status := by simpa [hs, ht] using status
      have sameData : r.data = q.data := by
        rw [left.rsp_data hs, right.rsp_data ht, agree (left.ready_of_rsp hs)]
      exact congrArg some (show Response.mk r.status r.data = q by rw [sameStatus, sameData])

end

/-- R37: twins go on for every number of steps, as twins, and show the same statuses. -/
theorem Twin.run (k : Nat) : ∀ {s t : State}, Twin s t →
    (∃ a b, StepsTo k s a ∧ StepsTo k t b ∧ Twin a b) ∧
      (responsesOf k s).map (·.status) = (responsesOf k t).map (·.status) := by
  induction k with
  | zero => exact fun {s t} h => ⟨⟨s, t, rfl, rfl, h⟩, rfl⟩
  | succ k ih =>
    intro s t h
    obtain ⟨s', left⟩ := h.exists_stepEffect
    obtain ⟨t', right, same, -⟩ := h.stepEffect left
    obtain ⟨⟨a, b, runA, runB, twins⟩, statuses⟩ := ih same.toTwin
    refine ⟨⟨a, b, ⟨s', left.step_eq, runA⟩, ⟨t', right.step_eq, runB⟩, twins⟩, ?_⟩
    have first : s'.rsp.toList.map (·.status) = t'.rsp.toList.map (·.status) := by
      simpa [Option.toList_map] using congrArg Option.toList same.status
    rw [responsesOf_succ left.step_eq, responsesOf_succ right.step_eq, List.map_append, List.map_append,
      first, statuses]

/-- Twins whose results agree answer the same from then on, resets included. -/
theorem Twin.responsesOf_eq (k : Nat) : ∀ {s t : State}, Twin s t → ResultsAgree s t →
    responsesOf k s = responsesOf k t := by
  induction k with
  | zero => exact fun _ _ => rfl
  | succ k ih =>
    intro s t h agree
    obtain ⟨s', left⟩ := h.exists_stepEffect
    obtain ⟨t', right, same, keeps⟩ := h.stepEffect left
    rw [responsesOf_succ left.step_eq, responsesOf_succ right.step_eq,
      same.rsp_eq (keeps agree) left right, ih same.toTwin (keeps agree)]

/-! ### Up to the first command that writes `RESULT` -/

/-- `rst` stays low, no fault is set, and the host offers `before`, of gaps and of words that raise no fault,
then `w`, then `after`. -/
structure Awaits (before : List (Option CmdWord)) (w : CmdWord) (after : List (Option CmdWord))
    (s : State) : Prop where
  offers : s.cmdIn = before ++ some w :: after
  clear : s.fault = false
  low : RstLow s
  harmless : ∀ v, some v ∈ before → ∃ i, decode v = .command i ∧ i ≠ .bounded 0#32

section
variable {before after : List (Option CmdWord)} {w : CmdWord} {s t : State}

theorem Awaits.of_eq (h : Awaits before w after s) (hcmdIn : t.cmdIn = s.cmdIn)
    (hfault : t.fault = s.fault) (hrstIn : t.rstIn = s.rstIn) : Awaits before w after t where
  offers := hcmdIn.trans h.offers
  clear := hfault.trans h.clear
  low := fun level hl => h.low level (hrstIn ▸ hl)
  harmless := h.harmless

theorem Awaits.passRst (h : Awaits before w after s) : Awaits before w after s.passRst :=
  { h with low := fun level hl => h.low level (List.mem_of_mem_tail hl) }

/-- A step that accepts nothing takes at most a gap off the offers ahead of `w`. -/
theorem Awaits.holdOffer (h : Awaits before w after s) :
    ∃ before', Awaits before' w after s.holdOffer ∧
      before'.countP Option.isSome = before.countP Option.isSome := by
  obtain unchanged | ⟨rest, gap, h'⟩ := holdOffer_cases s
  · exact ⟨before, by rwa [unchanged], rfl⟩
  · rw [h']
    cases before with
    | nil => simp [h.offers] at gap
    | cons o before' =>
      obtain ⟨rfl, rfl⟩ : o = none ∧ before' ++ some w :: after = rest := by simpa [h.offers] using gap
      exact ⟨before', { h with
        offers := rfl, harmless := fun v hv => h.harmless v (List.mem_cons_of_mem _ hv) }, by simp⟩

/-- What is accepted while offers still stand ahead of `w` is the first of them. -/
theorem Awaits.accepted (h : Awaits before w after s) {v : CmdWord} (nonempty : before ≠ [])
    (accepts : Accepts s v) :
    ∃ rest, before = some v :: rest ∧ Awaits rest w after (accepted s) := by
  obtain ⟨o, rest, rfl⟩ := List.exists_cons_of_ne_nil nonempty
  obtain ⟨-, -, offered⟩ := accepts
  obtain rfl : o = some v := by simpa [State.offeredWord, h.offers] using offered
  exact ⟨rest, rfl, { h.passRst with
    offers := congrArg List.tail h.offers
    harmless := fun v hv => h.harmless v (List.mem_cons_of_mem _ hv) }⟩

/-- Until `w` is accepted, each step shows one response for each word of `before` that it completes. -/
theorem Awaits.stepEffect (h : Awaits before w after s) (notYet : ¬(before = [] ∧ s.busy = false))
    {s' : State} (effect : StepEffect s s') :
    ∃ before', Awaits before' w after s' ∧
      s'.rsp.toList.length + (before'.countP Option.isSome + s'.busy.toNat) =
        before.countP Option.isSome + s.busy.toNat := by
  have nonempty (ready : s.busy = false) : before ≠ [] := fun empty => notYet ⟨empty, ready⟩
  cases effect with
  | reset asserted => simp [rstAsserted_of_rstLow h.low] at asserted
  | draw _ busy =>
    obtain ⟨before', awaits, count⟩ := h.passRst.holdOffer
    refine ⟨before', awaits.of_eq (by simp) (by simp) (by simp), ?_⟩
    rw [Nat.add_left_comm, drawPass_answers_or_busy, count, busy, Bool.toNat_true]
  | refuse _ faulted => simp [h.clear] at faulted
  | illegal accepts _ decodes =>
    obtain ⟨rest, rfl, -⟩ := h.accepted (nonempty accepts.ready) accepts
    obtain ⟨i, isCommand, -⟩ := h.harmless _ List.mem_cons_self
    simp [isCommand] at decodes
  | command accepts _ decodes effect =>
    obtain ⟨rest, rfl, awaits⟩ := h.accepted (nonempty accepts.ready) accepts
    obtain ⟨i, isCommand, notZeroBound⟩ := h.harmless _ List.mem_cons_self
    obtain rfl : i = _ := by simpa [isCommand] using decodes
    obtain ⟨hcmdIn, hrstIn⟩ := effect.inputs_eq
    obtain ⟨hfault, -⟩ := effect.flags_eq notZeroBound
    refine ⟨rest, awaits.of_eq hcmdIn hfault hrstIn, ?_⟩
    simp [Nat.add_left_comm, effect.answers_or_busy, accepts.ready]
  | idle _ ready =>
    obtain ⟨before', awaits, count⟩ := h.passRst.holdOffer
    exact ⟨before', awaits.of_eq rfl rfl rfl, by simp [count, ready]⟩

/-- The step that accepts a command that writes `RESULT` makes the results of twins agree. -/
theorem Twin.resultsAgree_of_writesResult (h : Twin s t) {s' t' : State} {i : Instr}
    (accepts : Accepts s w) (clear : s.fault = false) (decodes : decode w = .command i)
    (writes : WritesResult i) (left : StepEffect s s') (right : StepEffect t t') : ResultsAgree s' t' := by
  obtain ⟨u, effect⟩ := exists_commandEffect (Machine.accepted s) i
  obtain ⟨v, effect', -, agree⟩ := h.accepted.commandEffect effect
  obtain rfl := left.unique (.command accepts clear decodes effect)
  obtain rfl := right.unique (.command (h.accepts accepts) (h.fault ▸ clear) decodes effect')
  exact agree (.inr writes)

end

/-- Past the responses to the words ahead of a command that writes `RESULT`, and to the BOUNDED in progress
if there is one, twins answer the same. -/
theorem Twin.responsesOf_drop_eq {w : CmdWord} {i : Instr} {after : List (Option CmdWord)}
    (decodes : decode w = .command i) (writes : WritesResult i) (k : Nat) :
    ∀ {before : List (Option CmdWord)} {s t : State}, Twin s t → Awaits before w after s →
      (responsesOf k s).drop (before.countP Option.isSome + s.busy.toNat) =
        (responsesOf k t).drop (before.countP Option.isSome + s.busy.toNat) := by
  induction k with
  | zero => exact fun _ _ => rfl
  | succ k ih =>
    intro before s t h awaits
    obtain ⟨s', left⟩ := h.exists_stepEffect
    obtain ⟨t', right, same, -⟩ := h.stepEffect left
    rw [responsesOf_succ left.step_eq, responsesOf_succ right.step_eq]
    by_cases now : before = [] ∧ s.busy = false
    · obtain ⟨rfl, ready⟩ := now
      have accepts : Accepts s w :=
        ⟨rstAsserted_of_rstLow awaits.low, ready, by simp [State.offeredWord, awaits.offers]⟩
      have agree := h.resultsAgree_of_writesResult accepts awaits.clear decodes writes left right
      rw [same.rsp_eq agree left right, same.toTwin.responsesOf_eq k agree]
    · obtain ⟨before', awaits', count⟩ := awaits.stepEffect now left
      have sameLength : s'.rsp.toList.length = t'.rsp.toList.length := by
        simpa [Option.toList_map] using congrArg (·.toList.length) same.status
      rw [← count, List.drop_length_add_append, sameLength, List.drop_length_add_append]
      exact ih same.toTwin awaits'

/-! ### The import of an exported pair -/

/-- R37: LOAD of an exported pair makes the importing block a twin of the idle exporting one, whatever both
are then offered. -/
theorem twin_of_import {s u u' : State} (ready : s.busy = false) (clearS : s.fault = false)
    (clearU : u.fault = false) (imports : exec (importCommand s.exported) u = .next u')
    (offers : List (Option CmdWord)) (levels : List Bool) :
    Twin { u' with cmdIn := offers, rstIn := levels } { s with cmdIn := offers, rstIn := levels } := by
  obtain ⟨stateO, incO, -⟩ := dataPorts_of_ready ready
  cases (exec_eq_next_iff clearU).mp imports with
  | write =>
    exact {
      state := stateO
      inc := incO
      fault := clearU.trans clearS.symm
      busy := ready.symm
      draw := nofun
      cmdIn := rfl
      rstIn := rfl }

/-- Settles O18: the two blocks are twins from the LOAD on, and the first NEXT or BOUNDED makes their results
agree. -/
theorem loadResumesTheExportedGenerator : Obligations.LoadResumesTheExportedGenerator := by
  unfold Obligations.LoadResumesTheExportedGenerator
  refine ⟨fun s u u' offers levels k ready clearS clearU imports => ?_,
    fun s u u' before after w levels k ready clearS clearU imports harmless draws low => ?_⟩
  · have twins := twin_of_import ready clearS clearU imports offers levels
    obtain ⟨⟨a, b, runA, runB, same⟩, statuses⟩ := twins.run k
    exact ⟨⟨a, b, runA, runB, same.state, same.inc, same.fault, same.busy⟩, statuses⟩
  · have twins := twin_of_import ready clearS clearU imports (before ++ some w :: after) levels
    obtain ⟨i, decodes, writes⟩ : ∃ i, decode w = .command i ∧ WritesResult i := by
      obtain isNext | ⟨b, nonzero, isBounded⟩ := draws
      · exact ⟨_, isNext, .inl rfl⟩
      · exact ⟨_, isBounded, .inr ⟨b, nonzero, rfl⟩⟩
    have idle : u'.busy = false := twins.busy.trans ready
    have awaits : Awaits before w after
        { u' with cmdIn := before ++ some w :: after, rstIn := levels } :=
      ⟨rfl, twins.fault.trans clearS, low, harmless⟩
    simpa [idle] using twins.responsesOf_drop_eq decodes writes k awaits

end Sys2Proof.Machine
end

section
/-! CLAIM. The command word and the decoder (R39 to R42): the fields of a packed word, the one command a word of
each opcode decodes to, and the round trips. Every word is packed from its own fields, so the decoder is said once,
by `decode_packCommand` for the seven opcodes and `decode_of_reserved` for the rest. -/

namespace Sys2Proof

/-! ### The fields of a word (R39) -/

@[simp] theorem opField_packCommand (op : Opcode) (a b : Word) : opField (packCommand op a b) = op :=
  (Laws.Fields.fields_packCommand op a b).1
@[simp] theorem aField_packCommand (op : Opcode) (a b : Word) : aField (packCommand op a b) = a :=
  (Laws.Fields.fields_packCommand op a b).2.1
@[simp] theorem bField_packCommand (op : Opcode) (a b : Word) : bField (packCommand op a b) = b :=
  (Laws.Fields.fields_packCommand op a b).2.2

/-- A word is packed from its own fields. -/
@[simp] theorem packCommand_fields (w : CmdWord) : packCommand (opField w) (aField w) (bField w) = w := by
  have low : w.extractLsb' 8 32 ++ w.extractLsb' 0 8 = w.extractLsb' 0 40 :=
    BitVec.extractLsb'_append_extractLsb'_eq_extractLsb' rfl
  have all : w.extractLsb' 40 32 ++ w.extractLsb' 0 40 = w.extractLsb' 0 72 :=
    BitVec.extractLsb'_append_extractLsb'_eq_extractLsb' rfl
  calc packCommand (opField w) (aField w) (bField w)
    _ = w.extractLsb' 0 72 := by rw [packCommand, opField, aField, bField, low, all]
    _ = w := BitVec.extractLsb'_eq_self

/-- Appending is adding where the right part ends. -/
theorem toNat_append_eq_add {m n : Nat} (x : BitVec m) (y : BitVec n) :
    (x ++ y).toNat = x.toNat * 2 ^ n + y.toNat := by
  rw [BitVec.toNat_append, ← Nat.shiftLeft_add_eq_or_of_lt y.isLt, Nat.shiftLeft_eq]

theorem packCommand_toNat (op : Opcode) (a b : Word) :
    (packCommand op a b).toNat = b.toNat * 2 ^ 40 + a.toNat * 2 ^ 8 + op.toNat := by
  rw [packCommand, toNat_append_eq_add, toNat_append_eq_add, Nat.add_assoc]

theorem opField_toNat (w : CmdWord) : (opField w).toNat = w.toNat % 2 ^ 8 := by
  simp [opField, BitVec.extractLsb'_toNat]

theorem aField_toNat (w : CmdWord) : (aField w).toNat = w.toNat / 2 ^ 8 % 2 ^ 32 := by
  simp [aField, BitVec.extractLsb'_toNat, Nat.shiftRight_eq_div_pow]

/-- `b` reaches the top of the word. -/
theorem bField_toNat (w : CmdWord) : (bField w).toNat = w.toNat / 2 ^ 40 := by
  have top : w.toNat / 2 ^ 40 % 2 ^ 32 = w.toNat / 2 ^ 40 := by omega
  simpa [bField, BitVec.extractLsb'_toNat, Nat.shiftRight_eq_div_pow] using top

/-- Settles O4: appending is adding, extracting is dividing, and the three fields cover the word. -/
theorem commandWordLayout : Obligations.CommandWordLayout :=
  ⟨packCommand_toNat, fun w => ⟨opField_toNat w, aField_toNat w, bField_toNat w, packCommand_fields w⟩⟩

/-! ### What a word decodes to (R40, R41, R42) -/

/-- The command of `i`'s opcode with the operands `a` and `b`, of which it takes those it uses (R40). -/
def Instr.withOperands : Instr → Word → Word → Instr
  | .nop, _, _ => .nop
  | .seed _ _, a, b => .seed a b
  | .load _ _, a, b => .load a b
  | .step, _, _ => .step
  | .next, _, _ => .next
  | .jump _, a, _ => .jump a
  | .bounded _, a, _ => .bounded a

/-- A command is its opcode and the operands it uses. -/
@[simp] theorem withOperands_self (i : Instr) : i.withOperands (operandA i) (operandB i) = i := by
  cases i <;> rfl

@[simp] theorem opcodeOf_withOperands (i : Instr) (a b : Word) : opcodeOf (i.withOperands a b) = opcodeOf i := by
  cases i <;> rfl

/-- R40, R41: which commands use `a`, by their opcodes. -/
theorem operandA_withOperands (i : Instr) (a b : Word) :
    operandA (i.withOperands a b) = if (opcodeOf i).toNat ∈ [0x01, 0x02, 0x05, 0x06] then a else 0#32 := by
  cases i <;> rfl

/-- R40, R41: which commands use `b`, by their opcodes. -/
theorem operandB_withOperands (i : Instr) (a b : Word) :
    operandB (i.withOperands a b) = if (opcodeOf i).toNat ∈ [0x01, 0x02] then b else 0#32 := by
  cases i <;> rfl

/-- R40, R41: a word with a command's opcode decodes to that command, with the word's own operands. -/
theorem decode_packCommand (i : Instr) (a b : Word) :
    decode (packCommand (opcodeOf i) a b) = .command (i.withOperands a b) := by
  cases i <;> simp [decode, opcodeOf, Instr.withOperands]

/-- Commands that take the same operands are read from words that differ in the other operands only. -/
theorem decode_packCommand_congr {i : Instr} {a b a' b' : Word}
    (same : i.withOperands a b = i.withOperands a' b') :
    decode (packCommand (opcodeOf i) a b) = decode (packCommand (opcodeOf i) a' b') := by
  rw [decode_packCommand, decode_packCommand, same]

theorem decode_of_opcode {w : CmdWord} {i : Instr} (opcode : opcodeOf i = opField w) :
    decode w = .command (i.withOperands (aField w) (bField w)) := by
  rw [← decode_packCommand, opcode, packCommand_fields]

/-- R42: the opcodes 0x07 to 0xFF are illegal. -/
theorem decode_of_reserved {w : CmdWord} (reserved : 0x07 ≤ (opField w).toNat) :
    decode w = .illegal (opField w) := by
  unfold decode
  split
  case h_8 => rfl
  all_goals omega

/-- R41: the opcodes 0x00 to 0x06 are those of the seven commands. -/
theorem exists_opcodeOf_eq {op : Opcode} (small : op.toNat < 0x07) : ∃ i, opcodeOf i = op := by
  interval_cases value : op.toNat
  · exact ⟨.nop, BitVec.eq_of_toNat_eq value.symm⟩
  · exact ⟨.seed 0#32 0#32, BitVec.eq_of_toNat_eq value.symm⟩
  · exact ⟨.load 0#32 0#32, BitVec.eq_of_toNat_eq value.symm⟩
  · exact ⟨.step, BitVec.eq_of_toNat_eq value.symm⟩
  · exact ⟨.next, BitVec.eq_of_toNat_eq value.symm⟩
  · exact ⟨.jump 0#32, BitVec.eq_of_toNat_eq value.symm⟩
  · exact ⟨.bounded 0#32, BitVec.eq_of_toNat_eq value.symm⟩

/-- R42: every word that is not reserved decodes to a command. -/
theorem exists_decode_of_unreserved {w : CmdWord} (small : (opField w).toNat < 0x07) :
    ∃ i, decode w = .command i := by
  obtain ⟨i, opcode⟩ := exists_opcodeOf_eq small
  exact ⟨_, decode_of_opcode opcode⟩

/-- A word that decodes to a command has its opcode, and gives the command its operands. -/
theorem exists_withOperands_of_decode {w : CmdWord} {i : Instr} (decodes : decode w = .command i) :
    ∃ j, opcodeOf j = opField w ∧ i = j.withOperands (aField w) (bField w) := by
  obtain small | reserved := lt_or_ge (opField w).toNat 0x07
  · obtain ⟨j, opcode⟩ := exists_opcodeOf_eq small
    exact ⟨j, opcode, by simpa [decode_of_opcode opcode, eq_comm] using decodes⟩
  · simp [decode_of_reserved reserved] at decodes

/-! ### The statements -/

/-- Settles O2: the fields of the word are the command's opcode and its own operands. -/
theorem decodeOfEncode : Obligations.DecodeOfEncode := by
  unfold Obligations.DecodeOfEncode
  intro i
  rw [encode, decode_packCommand, withOperands_self]

/-- Settles O3: `encode` writes the opcode and the operands the command took from the word. -/
theorem encodeOfDecode : Obligations.EncodeOfDecode := by
  unfold Obligations.EncodeOfDecode
  intro w i decodes
  obtain ⟨j, opcode, rfl⟩ := exists_withOperands_of_decode decodes
  rw [encode, operandA_withOperands, operandB_withOperands, opcodeOf_withOperands, opcode]
  rfl

/-- Settles O1: fixed words, by running the decoder on them. -/
theorem sampleWordsDecode : Obligations.SampleWordsDecode := by
  unfold Obligations.SampleWordsDecode
  decide

/-- Settles O5: which operands a command takes from its word is what `Instr.withOperands` says. -/
theorem operandsUsedOrIgnored : Obligations.OperandsUsedOrIgnored := by
  unfold Obligations.OperandsUsedOrIgnored
  refine ⟨fun a b => ⟨?_, ?_, ?_, ?_⟩, fun op a b h => ?_, fun op a b h => ?_,
    rfl, rfl, rfl, fun _ => rfl, fun _ => rfl⟩
  · exact decode_packCommand (.seed a b) a b
  · exact decode_packCommand (.load a b) a b
  · exact decode_packCommand (.jump a) a b
  · exact decode_packCommand (.bounded a) a b
  · obtain rfl | rfl | rfl : op = 0x00#8 ∨ op = 0x03#8 ∨ op = 0x04#8 := by simpa using h
    · exact decode_packCommand_congr (i := .nop) rfl
    · exact decode_packCommand_congr (i := .step) rfl
    · exact decode_packCommand_congr (i := .next) rfl
  · obtain rfl | rfl : op = 0x05#8 ∨ op = 0x06#8 := by simpa using h
    · exact decode_packCommand_congr (i := .jump a) rfl
    · exact decode_packCommand_congr (i := .bounded a) rfl

end Sys2Proof
end

section
/-! CLAIM. The acceptance of a word (R38, R42, R46, R80), the pseudo-instructions (R45), and the command port over
one step and over a run: what is held, what is taken, and what is answered. -/

namespace Sys2Proof.Machine

/-! ### Accepting a word -/

/-- R81: on a faulted block every command is the refusal. -/
theorem exec_of_faulted {s : State} (faulted : s.fault = true) (i : Instr) :
    exec i s = .next s.refuseFaulted := by
  cases i <;> exact congrArg Host.Outcome.next (unlessFaulted_of_faulted faulted _)

/-- R46: the command cycle of a word that decodes to a command is that command, on a faulted block too. -/
theorem acceptCommand_of_command {w : CmdWord} {i : Instr} (decodes : decode w = .command i) (s : State) :
    acceptCommand w s = exec i s := by
  cases h : s.fault
  · simp [acceptCommand, h, decodes]
  · simp [acceptCommand, h, exec_of_faulted h]

/-- Settles O8: the accepting step is the command cycle, and the command cycle runs the command. -/
theorem stepRunsTheDecodedCommand : Obligations.StepRunsTheDecodedCommand := by
  unfold Obligations.StepRunsTheDecodedCommand
  intro s w i accepts decodes
  exact (step_of_accepts accepts).trans (acceptCommand_of_command decodes _)

/-- Settles O6: the reserved opcodes are illegal, the others are commands, and accepting an illegal word raises
the fault. -/
theorem reservedOpcodesRaiseIllegalOp : Obligations.ReservedOpcodesRaiseIllegalOp := by
  unfold Obligations.ReservedOpcodesRaiseIllegalOp
  exact ⟨fun _ => decode_of_reserved, fun _ => exists_decode_of_unreserved,
    fun _ _ accepts clear reserved => (StepEffect.illegal accepts clear (decode_of_reserved reserved)).step_eq⟩

/-! ### The pseudo-instructions -/

theorem backwardCount_toNat (k : Nat) : (backwardCount k).toNat = (2 ^ 32 - k) % 2 ^ 32 := by
  simp [backwardCount]

theorem clampLength_toNat (n : Nat) : (clampLength n).toNat = min n 4294967295 := by
  simp only [clampLength, BitVec.toNat_ofNat]
  omega

/-- R44, R45: `jumpb k` is well formed for `k` in range, and expands to one JUMP. -/
theorem assemble_jumpb {k : Nat} (inRange : k ≤ 4294967295) :
    assemble (.jumpb k) = some (.jump (backwardCount k)) := by
  simp [assemble, asmExpansion, AsmLine.wellFormed, operandInRange, inRange]

/-- Settles O7: the expansions, their operands as numbers, and the fault of a zero bound. -/
theorem pseudoInstructionsExpand : Obligations.PseudoInstructionsExpand := by
  unfold Obligations.PseudoInstructionsExpand
  refine ⟨fun k inRange => ⟨_, assemble_jumpb inRange, backwardCount_toNat k⟩,
    fun n => ⟨_, rfl, clampLength_toNat n⟩, rfl, rfl, fun s clear => ?_⟩
  simp [execAll, CommandEffect.zeroBound.exec_eq clear]

/-! ### The command port over one step -/

theorem pendingCommands_congr {s t : State} (h : s.cmdIn = t.cmdIn) : s.pendingCommands = t.pendingCommands :=
  congrArg (List.countP Option.isSome) h

@[simp] theorem passRst_pendingCommands (s : State) : s.passRst.pendingCommands = s.pendingCommands := rfl
@[simp] theorem idle_pendingCommands (s : State) : s.idle.pendingCommands = s.pendingCommands := rfl
@[simp] theorem applyReset_pendingCommands (s : State) : s.applyReset.pendingCommands = s.pendingCommands := rfl
@[simp] theorem drawPass_pendingCommands (s : State) (b : Word) (n : Nat) :
    (s.drawPass b n).pendingCommands = s.pendingCommands :=
  pendingCommands_congr (drawPass_cmdIn s b n)

/-- A step that accepts nothing takes no word off the command port (R95). -/
@[simp] theorem holdOffer_pendingCommands (s : State) : s.holdOffer.pendingCommands = s.pendingCommands := by
  obtain h | ⟨rest, gap, h⟩ := holdOffer_cases s
  · rw [h]
  · simp [h, State.pendingCommands, gap]

/-- An accepted word is one of those that were offered. -/
theorem Accepts.pendingCommands_eq {s : State} {w : CmdWord} (h : Accepts s w) :
    s.pendingCommands = (accepted s).pendingCommands + 1 := by
  obtain ⟨-, -, offered⟩ := h
  cases offers : s.cmdIn with
  | nil => simp [State.offeredWord, offers] at offered
  | cons o rest =>
    obtain rfl : o = some w := by simpa [State.offeredWord, offers] using offered
    simp [State.pendingCommands, accepted, offers]

/-- R33, R95: a step that begins with `BUSY = 1` holds the offered word; a reset step does so too. -/
theorem StepEffect.cmdIn_eq_of_busy {s t : State} {w : CmdWord} (effect : StepEffect s t) (busy : s.busy = true)
    (offered : s.offeredWord = some w) : t.cmdIn = s.cmdIn := by
  have held : s.passRst.holdOffer = s.passRst := holdOffer_of_offered offered
  cases effect with
  | reset => simp [held]
  | draw => simp [held]
  | refuse accepts => simp [accepts.ready] at busy
  | illegal accepts => simp [accepts.ready] at busy
  | command accepts => simp [accepts.ready] at busy
  | idle _ ready => simp [ready] at busy

/-- R38, R93: a word leaves the command port only where it is accepted. -/
theorem StepEffect.accepts_of_pendingCommands_ne {s t : State} (effect : StepEffect s t)
    (taken : t.pendingCommands ≠ s.pendingCommands) : ∃ w, Accepts s w := by
  cases effect with
  | reset => simp at taken
  | draw => simp at taken
  | refuse accepts => exact ⟨_, accepts⟩
  | illegal accepts => exact ⟨_, accepts⟩
  | command accepts => exact ⟨_, accepts⟩
  | idle => simp at taken

/-- Settles O12, from what a busy step holds and what an accepting step takes. -/
theorem offerHeldWhileBusy : Obligations.OfferHeldWhileBusy := by
  unfold Obligations.OfferHeldWhileBusy
  refine ⟨fun s t w busy offered h => (stepEffect_of_step h).cmdIn_eq_of_busy busy offered, fun _ => rfl,
    fun s t h taken => ?_⟩
  obtain ⟨w, low, ready, offered⟩ := (stepEffect_of_step h).accepts_of_pendingCommands_ne taken
  simp [State.cmdReady, State.cmdValid, low, ready, offered]

/-! ### One response per command -/

theorem StepEffect.rstIn_eq {s t : State} (effect : StepEffect s t) : t.rstIn = s.rstIn.tail := by
  cases effect with
  | reset => simp
  | draw => simp
  | refuse => rfl
  | illegal => rfl
  | command _ _ _ effect =>
    obtain ⟨-, levels⟩ := effect.inputs_eq
    exact levels
  | idle => simp

theorem StepEffect.rstLow {s t : State} (effect : StepEffect s t) (low : RstLow s) : RstLow t :=
  fun level h => low level (List.mem_of_mem_tail (effect.rstIn_eq ▸ h))

/-- The end of an acceptance: one word is off the command port, and it is answered or in progress. -/
theorem Accepts.conserves {s t : State} {w : CmdWord} (h : Accepts s w) (offers : t.cmdIn = (accepted s).cmdIn)
    (once : t.rsp.toList.length + t.busy.toNat = 1) :
    s.pendingCommands + s.inProgress = t.pendingCommands + t.inProgress + t.rsp.toList.length := by
  rw [h.pendingCommands_eq, pendingCommands_congr offers]
  simp only [State.inProgress, h.ready, Bool.toNat_false]
  omega

/-- R33, R38, R47: a step without reset conserves the commands offered, in progress and answered. It needs no
consistency: an idle step answers nothing, and a draw ends the BOUNDED in progress exactly where it answers. -/
theorem StepEffect.conserves {s t : State} (effect : StepEffect s t) (low : s.rstAsserted = false) :
    s.pendingCommands + s.inProgress = t.pendingCommands + t.inProgress + t.rsp.toList.length := by
  cases effect with
  | reset asserted => simp [low] at asserted
  | @draw regs _ busy =>
    have once := drawPass_answers_or_busy s.passRst.holdOffer regs.sBound regs.sN
    simp only [State.inProgress, drawPass_pendingCommands, holdOffer_pendingCommands, passRst_pendingCommands,
      busy, Bool.toNat_true]
    omega
  | refuse accepts => exact accepts.conserves rfl rfl
  | illegal accepts => exact accepts.conserves rfl rfl
  | command accepts _ _ effect =>
    obtain ⟨offers, -⟩ := effect.inputs_eq
    exact accepts.conserves offers effect.answers_or_busy
  | idle => simp [State.inProgress]

/-- Settles O13, by induction on the number of steps. -/
theorem oneResponsePerCommand : Obligations.OneResponsePerCommand := by
  unfold Obligations.OneResponsePerCommand
  intro k
  induction k with
  | zero =>
    rintro s _ - - rfl
    rfl
  | succ k ih =>
    rintro s t consistent low ⟨u, first, rest⟩
    have effect := stepEffect_of_step first
    have conserved := effect.conserves (rstAsserted_of_rstLow low)
    have later := ih u t (effect.consistent consistent) (effect.rstLow low) rest
    rw [responsesOf_succ first, List.length_append]
    omega

end Sys2Proof.Machine
end

section
/-! CLAIM. NOP, SEED and LOAD (R48, R49, R50): the next state of each, the number theory behind their corner cases
(multiplying by `M` loses nothing, since `M` is odd; an increment of 2 gives an orbit of length 2^31, since
`M % 4 = 1`), and the rules' examples. -/

namespace Sys2Proof.Machine

/-! ### The next state on a block without a fault -/

theorem exec_nop {s : State} (clear : s.fault = false) : exec .nop s = .next (s.respond .ok) :=
  (CommandEffect.write (by simp)).exec_eq clear

theorem exec_seed {s : State} (clear : s.fault = false) (a b : Word) :
    exec (.seed a b) s = .next
      (((s.setState (seedState sourceParams a (seedIncrement b))).setInc (seedIncrement b)).respond .ok) :=
  (CommandEffect.write (by simp)).exec_eq clear

theorem exec_load {s : State} (clear : s.fault = false) (a b : Word) :
    exec (.load a b) s = .next (((s.setState a).setInc b).respond .ok) :=
  (CommandEffect.write (by simp)).exec_eq clear

theorem exec_next {s : State} (clear : s.fault = false) :
    exec .next s = .next
      (((s.setResult (drawWord sourceParams s.state)).setState
        (nextTransition sourceParams s.state s.inc)).respond .ok) :=
  (CommandEffect.write (by simp)).exec_eq clear

/-- Settles O15: NOP is the response alone, or the refusal that every command meets on a faulted block. -/
theorem nopOnlyResponds : Obligations.NopOnlyResponds :=
  ⟨decode_packCommand .nop, fun _ clear => exec_nop clear, fun _ faulted => exec_of_faulted faulted .nop⟩

/-! ### SEED's increment and state (R49) -/

theorem seedIncrement_odd (b : Word) : (seedIncrement b).getLsbD 0 = true := by
  simp [seedIncrement]

/-- Bit 31 of the stream id is shifted out. -/
theorem seedIncrement_xor_top (b : Word) : seedIncrement (b ^^^ 0x80000000#32) = seedIncrement b := by
  have shiftedOut : 0x80000000#32 <<< 1 = 0#32 := by decide
  rw [seedIncrement, BitVec.shiftLeft_xor_distrib, shiftedOut, BitVec.xor_zero, seedIncrement]

/-- The advance from zero gives the increment alone. -/
theorem seedState_eq (P : Params) (a c : Word) : seedState P a c = P.multiplier * (c + a) + c := by
  simp [seedState, lcgStep]

/-- R49, R57: a step is injective in the state, since the odd `M` has an inverse modulo 2^32. -/
theorem lcgStep_injective (c : Word) : Function.Injective fun s => lcgStep sourceParams s c := by
  have inverse : 0x421DD825#32 * sourceParams.multiplier = 1#32 := by decide
  intro s t (h : sourceParams.multiplier * s + c = sourceParams.multiplier * t + c)
  have products : sourceParams.multiplier * s = sourceParams.multiplier * t := add_right_cancel h
  calc s
    _ = 0x421DD825#32 * (sourceParams.multiplier * s) := by
      rw [← BitVec.mul_assoc, inverse, BitVec.one_mul]
    _ = 0x421DD825#32 * (sourceParams.multiplier * t) := by rw [products]
    _ = t := by rw [← BitVec.mul_assoc, inverse, BitVec.one_mul]

/-- R49: distinct seeds of one stream give distinct states. -/
theorem seedState_injective (c : Word) : Function.Injective fun a => seedState sourceParams a c :=
  fun _ _ h => add_left_cancel (lcgStep_injective c h)

/-- Settles O16: the frame is that of the register writes, the corner cases are facts about `seedIncrement` and
`seedState`, and the examples run the command. -/
theorem seedBuildsTheGenerator : Obligations.SeedBuildsTheGenerator := by
  unfold Obligations.SeedBuildsTheGenerator
  refine ⟨fun a b => decode_packCommand (.seed a b) a b, fun s a b clear => exec_seed clear a b,
    fun s t a b clear ran => ?_, fun s t u a a' b clear ran ran' same => ?_, fun s clear => ?_⟩
  · rw [exec_seed clear, Host.Outcome.next.injEq] at ran
    subst ran
    refine ⟨seedIncrement_odd b, seedState_eq sourceParams a _, ?_⟩
    rw [exec_seed clear, seedIncrement_xor_top]
  · rw [exec_seed clear, Host.Outcome.next.injEq] at ran ran'
    subst ran ran'
    exact seedState_injective _ same
  · simp only [execAll, exec_seed clear]
    exact ⟨rfl, rfl, rfl⟩

/-! ### The orbit of an even increment (R50, R54) -/

/-- R54: the exact sum is the library's geometric sum. -/
theorem geometricSum_eq_sum (m d : Nat) : geometricSum m d = ∑ i ∈ Finset.range d, m ^ i := by
  induction d with
  | zero => rfl
  | succ d ih => rw [geometricSum, ih, Finset.sum_range_succ]

/-- R54: `d` steps are the affine map with multiplier `m^d` and increment `c * G(d)`. -/
theorem lcgSteps_toNat (P : Params) (s c : Word) (d : Nat) :
    (lcgSteps P s c d).toNat =
      (P.multiplier.toNat ^ d * s.toNat + c.toNat * geometricSum P.multiplier.toNat d) % 2 ^ 32 := by
  induction d with
  | zero => simp [lcgSteps, geometricSum, Nat.mod_eq_of_lt s.isLt]
  | succ d ih =>
    rw [lcgSteps, lcgStep, BitVec.toNat_add, BitVec.toNat_mul, ih, geometricSum_succ, Nat.mod_add_mod]
    refine Nat.ModEq.trans (((Nat.mod_modEq _ _).mul_left _).add_right _) (congrArg (· % 2 ^ 32) ?_)
    ring

/-- For a multiplier that is 1 modulo 4, the sum of `d` terms holds 2 as often as `d` (lifting the exponent). -/
theorem emultiplicity_two_geometricSum {m : Nat} (large : 1 < m) (mod4 : m % 4 = 1) (d : Nat) :
    emultiplicity 2 (geometricSum m d) = emultiplicity 2 d := by
  have nonzero : (m - 1 : ℤ) ≠ 0 := by omega
  have lifted := Int.two_pow_sub_pow' (x := m) (y := 1) d (by omega) (by omega)
  rw [one_pow, ← mul_geom_sum, emultiplicity_mul Int.prime_two] at lifted
  have finite : emultiplicity 2 (m - 1 : ℤ) ≠ ⊤ :=
    finiteMultiplicity_iff_emultiplicity_ne_top.mp (Int.finiteMultiplicity_iff.mpr ⟨by decide, nonzero⟩)
  have cancelled := (ENat.addLECancellable_of_ne_top finite).inj.mp lifted
  rw [← Int.natCast_emultiplicity, ← Int.natCast_emultiplicity 2 d, geometricSum_eq_sum]
  exact_mod_cast cancelled

theorem two_pow_dvd_geometricSum_iff {m : Nat} (large : 1 < m) (mod4 : m % 4 = 1) (k d : Nat) :
    2 ^ k ∣ geometricSum m d ↔ 2 ^ k ∣ d := by
  rw [pow_dvd_iff_le_emultiplicity, pow_dvd_iff_le_emultiplicity, emultiplicity_two_geometricSum large mod4]

/-- R50: with `INC = 2` the orbit of state 0 has length 2^31. -/
theorem lcgSteps_two_eq_zero_iff (d : Nat) : lcgSteps sourceParams 0#32 2#32 d = 0#32 ↔ 2 ^ 31 ∣ d := by
  rw [← two_pow_dvd_geometricSum_iff (m := sourceParams.multiplier.toNat) (by decide) (by decide) 31 d,
    BitVec.toNat_eq, lcgSteps_toNat]
  simp only [BitVec.toNat_ofNat]
  omega

/-- Settles O17: the frame is that of the register writes, an idle block exports its registers, the orbit is
`lcgSteps_two_eq_zero_iff`, and the examples run the commands. -/
theorem loadImportsThePair : Obligations.LoadImportsThePair := by
  unfold Obligations.LoadImportsThePair
  refine ⟨fun a b => decode_packCommand (.load a b) a b, fun s a b clear => exec_load clear a b,
    fun s u ready clear => ?_, lcgSteps_two_eq_zero_iff, fun s clear => ?_⟩
  · obtain ⟨state, inc, -⟩ := dataPorts_of_ready ready
    rw [importCommand, State.exported, state, inc]
    exact exec_load clear s.state s.inc
  · simp only [execAll, exec_seed clear, exec_load clear, exec_next, respond_fault, setInc_fault,
      setState_fault, clear]
    have pair : (nextTransition sourceParams (seedState sourceParams 7#32 (seedIncrement 3#32)) (seedIncrement 3#32),
        seedIncrement 3#32) = (0xAE1CF776#32, 7#32) := by decide
    have output : drawWord sourceParams 0xAE1CF776#32 = 0xBA69FAE4#32 := by decide
    exact ⟨congrArg some pair, congrArg some output⟩

end Sys2Proof.Machine
end

section
/-! CLAIM. STEP and JUMP (R53 to R58). Each pass of JUMP's loop leaves its outcome as it is; the number of steps
that return to the state they started from is read off `G(d)`; and a program of STEPs and JUMPs is one iterated
step, so that the laws of JUMP are arithmetic modulo 2^32 of its count. -/

namespace Sys2Proof.Machine

/-! ### The loop of JUMP (R55) -/

/-- The affine map of the accumulators of the loop, applied to `s`. -/
def JumpLoop.accumulated (L : JumpLoop) (s : Word) : Word :=
  L.accMult * s + L.accPlus

/-- What the loop computes in the end from `L`: the remaining count of steps by its current affine map, taken
from what it has accumulated. -/
def JumpLoop.outcome (P : Params) (L : JumpLoop) (s : Word) : Word :=
  lcgSteps { P with multiplier := L.curMult } (L.accumulated s) L.curPlus L.remaining.toNat

theorem advance_eq_accumulated (P : Params) (s c d : Word) :
    advance P s c d = (jumpLoopRun 32 (jumpLoopStart P c d)).accumulated s := rfl

theorem outcome_jumpLoopStart (P : Params) (s c d : Word) :
    (jumpLoopStart P c d).outcome P s = lcgSteps P s c d.toNat := by
  simp [JumpLoop.outcome, JumpLoop.accumulated, jumpLoopStart]

theorem outcome_of_finished (P : Params) {L : JumpLoop} (finished : L.remaining = 0#32) (s : Word) :
    L.outcome P s = L.accumulated s := by
  simp [JumpLoop.outcome, finished, lcgSteps]

/-- Squaring: one step by the composed map `(m * m, (m + 1) * c)` is two steps by `(m, c)`. -/
theorem lcgSteps_squared (P : Params) (m s c : Word) (d : Nat) :
    lcgSteps { P with multiplier := m * m } s ((m + 1#32) * c) d =
      lcgSteps { P with multiplier := m } s c (2 * d) := by
  rw [add_mul, BitVec.one_mul]
  induction d with
  | zero => rfl
  | succ d ih =>
    simp only [Nat.mul_succ, lcgSteps, lcgStep, ih]
    ring

/-- The accumulators take one step by the current map where the lowest bit of the count is set. -/
theorem accumulated_jumpLoopBody (P : Params) (L : JumpLoop) (s : Word) :
    (jumpLoopBody L).accumulated s =
      lcgSteps { P with multiplier := L.curMult } (L.accumulated s) L.curPlus (L.remaining.toNat % 2) := by
  obtain even | odd := Nat.mod_two_eq_zero_or_one L.remaining.toNat
  · simp [JumpLoop.accumulated, jumpLoopBody, BitVec.getLsbD, Nat.testBit_zero, even, lcgSteps]
  · simp only [JumpLoop.accumulated, jumpLoopBody, BitVec.getLsbD, Nat.testBit_zero, odd, lcgSteps, lcgStep,
      decide_true, if_true]
    ring

/-- The invariant of the loop: its body leaves the outcome as it is. -/
theorem outcome_jumpLoopBody (P : Params) (L : JumpLoop) (s : Word) :
    (jumpLoopBody L).outcome P s = L.outcome P s := by
  have halved : (jumpLoopBody L).remaining.toNat = L.remaining.toNat / 2 := by
    simp [jumpLoopBody, Nat.shiftRight_eq_div_pow]
  calc (jumpLoopBody L).outcome P s
    _ = lcgSteps { P with multiplier := L.curMult } ((jumpLoopBody L).accumulated s) L.curPlus
          (2 * (L.remaining.toNat / 2)) := by
      rw [← halved]
      exact lcgSteps_squared P L.curMult _ L.curPlus _
    _ = L.outcome P s := by
      rw [accumulated_jumpLoopBody P, ← lcgSteps_add, Nat.mod_add_div, JumpLoop.outcome]

/-- Each iteration halves the count, so as many iterations as the count has bits finish the loop. -/
theorem accumulated_jumpLoopRun (P : Params) (s : Word) (fuel : Nat) :
    ∀ L : JumpLoop, L.remaining.toNat < 2 ^ fuel → (jumpLoopRun fuel L).accumulated s = L.outcome P s := by
  induction fuel with
  | zero =>
    intro L small
    have finished : L.remaining = 0#32 := BitVec.eq_of_toNat_eq (by simpa using small)
    exact (outcome_of_finished P finished s).symm
  | succ fuel ih =>
    intro L small
    by_cases finished : L.remaining = 0#32
    · rw [jumpLoopRun, if_pos finished, outcome_of_finished P finished]
    · have smaller : (jumpLoopBody L).remaining.toNat < 2 ^ fuel := by
        rw [jumpLoopBody, BitVec.toNat_ushiftRight, Nat.shiftRight_eq_div_pow]
        omega
      rw [jumpLoopRun, if_neg finished, ih _ smaller, outcome_jumpLoopBody]

/-- Settles O21: a 32-bit count is finished after 32 iterations, with the outcome it started with. -/
theorem jumpLoopIsIteratedStep : Obligations.JumpLoopIsIteratedStep := by
  unfold Obligations.JumpLoopIsIteratedStep
  intro P s c d
  rw [advance_eq_accumulated, accumulated_jumpLoopRun P s 32 _ d.isLt, outcome_jumpLoopStart]

/-! ### The closed form and the period (R54, R58) -/

/-- Settles O20, by the induction on `d` that the orbit of LOAD's example rests on. -/
theorem iteratedStepClosedForm : Obligations.IteratedStepClosedForm :=
  lcgSteps_toNat

/-- R54: how far `d` steps carry `s`, with no power in it. The two ways to take a term off `G(d + 1)`, the last
and the first, give the power. -/
theorem affine_eq_add_geometricSum_mul {m : Nat} (positive : 0 < m) (s c d : Nat) :
    m ^ d * s + c * geometricSum m d = s + geometricSum m d * ((m - 1) * s + c) := by
  obtain ⟨n, rfl⟩ := Nat.exists_eq_add_of_le' positive
  have telescoped : geometricSum (n + 1) d + (n + 1) ^ d = (n + 1) * geometricSum (n + 1) d + 1 :=
    geometricSum_succ (n + 1) d
  have power : (n + 1) ^ d = n * geometricSum (n + 1) d + 1 := by linarith
  rw [power, Nat.add_sub_cancel]
  ring

/-- `d` steps return to `s` exactly when 2^32 divides the distance they go. -/
theorem lcgSteps_eq_self_iff_dvd (s c : Word) (d : Nat) :
    lcgSteps sourceParams s c d = s ↔
      2 ^ 32 ∣ geometricSum sourceParams.multiplier.toNat d *
        ((sourceParams.multiplier.toNat - 1) * s.toNat + c.toNat) := by
  rw [BitVec.toNat_eq, lcgSteps_toNat, affine_eq_add_geometricSum_mul (by decide)]
  have inRange := s.isLt
  omega

/-- R57: every 2^32 steps return to the state they started from, whatever the increment. -/
theorem lcgSteps_eq_self_of_dvd (s c : Word) {d : Nat} (whole : 2 ^ 32 ∣ d) :
    lcgSteps sourceParams s c d = s :=
  (lcgSteps_eq_self_iff_dvd s c d).mpr
    (Dvd.dvd.mul_right ((two_pow_dvd_geometricSum_iff (by decide) (by decide) 32 d).mpr whole) _)

/-- R57: the count of steps matters modulo 2^32 only. -/
theorem lcgSteps_mod (s c : Word) (d : Nat) :
    lcgSteps sourceParams s c (d % 2 ^ 32) = lcgSteps sourceParams s c d := by
  conv_rhs => rw [← Nat.div_add_mod d (2 ^ 32), lcgSteps_add,
    lcgSteps_eq_self_of_dvd s c (Nat.dvd_mul_right _ _)]

theorem lcgSteps_congr (s c : Word) {d d' : Nat} (same : d % 2 ^ 32 = d' % 2 ^ 32) :
    lcgSteps sourceParams s c d = lcgSteps sourceParams s c d' := by
  rw [← lcgSteps_mod, same, lcgSteps_mod]

/-- R58: with an odd increment only a multiple of 2^32 steps returns, since `M - 1` is even and the distance
therefore `G(d)` times an odd number. -/
theorem dvd_of_lcgSteps_eq_self {s c : Word} (odd : c.getLsbD 0 = true) {d : Nat}
    (returns : lcgSteps sourceParams s c d = s) : 2 ^ 32 ∣ d := by
  have oddInc : c.toNat % 2 = 1 := by simpa [BitVec.getLsbD, Nat.testBit_zero] using odd
  have evenMultiplier : (sourceParams.multiplier.toNat - 1) % 2 = 0 := by decide
  have oddFactor : Odd ((sourceParams.multiplier.toNat - 1) * s.toNat + c.toNat) :=
    ((Nat.even_iff.mpr evenMultiplier).mul_right _).add_odd (Nat.odd_iff.mpr oddInc)
  have coprime := (Nat.coprime_two_left.mpr oddFactor).pow_left 32
  exact (two_pow_dvd_geometricSum_iff (by decide) (by decide) 32 d).mp
    (coprime.dvd_of_dvd_mul_right ((lcgSteps_eq_self_iff_dvd s c d).mp returns))

theorem lcgSteps_injective (c : Word) (d : Nat) :
    Function.Injective fun s => lcgSteps sourceParams s c d := by
  induction d with
  | zero => exact Function.injective_id
  | succ d ih => exact (lcgStep_injective c).comp ih

/-- Two counts, the smaller one first, that lead to the same state: the steps between them return. -/
theorem mod_eq_of_lcgSteps_eq {s c : Word} (odd : c.getLsbD 0 = true) {d d' : Nat} (ordered : d ≤ d')
    (same : lcgSteps sourceParams s c d = lcgSteps sourceParams s c d') : d % 2 ^ 32 = d' % 2 ^ 32 := by
  obtain ⟨gap, rfl⟩ := Nat.exists_eq_add_of_le' ordered
  have returns : lcgSteps sourceParams s c gap = s :=
    lcgSteps_injective c d ((lcgSteps_add sourceParams s c gap d).symm.trans same.symm)
  have whole := dvd_of_lcgSteps_eq_self odd returns
  omega

theorem lcgSteps_eq_iff {s c : Word} (odd : c.getLsbD 0 = true) (d d' : Nat) :
    lcgSteps sourceParams s c d = lcgSteps sourceParams s c d' ↔ d % 2 ^ 32 = d' % 2 ^ 32 := by
  refine ⟨fun same => ?_, lcgSteps_congr s c⟩
  obtain ordered | ordered := le_total d d'
  · exact mod_eq_of_lcgSteps_eq odd ordered same
  · exact (mod_eq_of_lcgSteps_eq odd ordered same.symm).symm

/-- The 2^32 counts lead to different words, so they lead to all of them. -/
theorem exists_lcgSteps_eq {s c : Word} (odd : c.getLsbD 0 = true) (v : Word) :
    ∃ d : Word, lcgSteps sourceParams s c d.toNat = v := by
  have injective : Function.Injective fun d : Word => lcgSteps sourceParams s c d.toNat := fun d d' same =>
    BitVec.eq_of_toNat_eq (by simpa only [BitVec.toNat_mod_cancel] using (lcgSteps_eq_iff odd _ _).mp same)
  exact Finite.surjective_of_injective injective v

/-- Settles O24: the words are the counts below 2^32, and counts agree modulo the period. -/
theorem oddIncrementHasFullPeriod : Obligations.OddIncrementHasFullPeriod := by
  unfold Obligations.OddIncrementHasFullPeriod
  refine fun s c odd => ⟨fun v => ?_, lcgSteps_eq_iff odd⟩
  obtain ⟨d, reaches⟩ := exists_lcgSteps_eq odd v
  exact ⟨d.toNat, d.isLt, reaches⟩

/-! ### Programs of STEPs and JUMPs (R53, R56, R57) -/

/-- The commands that only advance the generator. -/
def IsAdvance (i : Instr) : Prop :=
  i = .step ∨ ∃ delta, i = .jump delta

@[simp] theorem isAdvance_step : IsAdvance .step := .inl rfl
@[simp] theorem isAdvance_jump (delta : Word) : IsAdvance (.jump delta) := .inr ⟨delta, rfl⟩

/-- The number of LCG steps a command takes: one for STEP, `delta` for JUMP. -/
def stepCount : Instr → Nat
  | .step => 1
  | .jump delta => delta.toNat
  | _ => 0

/-- R53, R56: STEP and JUMP leave the state that so many steps leave, and write no other register. -/
theorem exec_advance {s : State} (clear : s.fault = false) {i : Instr} (advances : IsAdvance i) :
    exec i s = .next ((s.setState (lcgSteps sourceParams s.state s.inc (stepCount i))).respond .ok) := by
  obtain rfl | ⟨delta, rfl⟩ := advances
  · exact (CommandEffect.write (by simp)).exec_eq clear
  · rw [stepCount, ← jumpLoopIsIteratedStep]
    exact (CommandEffect.write (by simp)).exec_eq clear

theorem exec_step {s : State} (clear : s.fault = false) :
    exec .step s = .next ((s.setState (lcgStep sourceParams s.state s.inc)).respond .ok) :=
  exec_advance clear isAdvance_step

theorem exec_jump {s : State} (clear : s.fault = false) (delta : Word) :
    exec (.jump delta) s =
      .next ((s.setState (lcgSteps sourceParams s.state s.inc delta.toNat)).respond .ok) :=
  exec_advance clear (isAdvance_jump delta)

/-- A program of STEPs and JUMPs is one iterated step, by the sum of the counts. -/
theorem execAll_state_of_advances (is : List Instr) :
    ∀ {s : State}, s.fault = false → (∀ i ∈ is, IsAdvance i) →
      (execAll is s).map (·.state) =
        some (lcgSteps sourceParams s.state s.inc (is.map stepCount).sum) := by
  induction is with
  | nil => exact fun _ _ => rfl
  | cons i is ih =>
    intro s clear advances
    rw [List.forall_mem_cons] at advances
    obtain ⟨first, rest⟩ := advances
    simp only [execAll, exec_advance clear first]
    rw [List.map_cons, List.sum_cons, lcgSteps_add]
    exact ih clear rest

/-- Programs of STEPs and JUMPs whose counts agree modulo 2^32 leave the same `STATE`. -/
theorem execAll_state_congr {s : State} (clear : s.fault = false) {is js : List Instr}
    (isAdvance : ∀ i ∈ is, IsAdvance i) (jsAdvance : ∀ j ∈ js, IsAdvance j)
    (same : (is.map stepCount).sum % 2 ^ 32 = (js.map stepCount).sum % 2 ^ 32) :
    (execAll is s).map (·.state) = (execAll js s).map (·.state) := by
  rw [execAll_state_of_advances is clear isAdvance, execAll_state_of_advances js clear jsAdvance,
    lcgSteps_congr _ _ same]

/-- A program of STEPs and JUMPs whose count is 0 modulo 2^32 restores `STATE`. -/
theorem execAll_state_of_whole {s : State} (clear : s.fault = false) {is : List Instr}
    (advances : ∀ i ∈ is, IsAdvance i) (whole : 2 ^ 32 ∣ (is.map stepCount).sum) :
    (execAll is s).map (·.state) = some s.state := by
  rw [execAll_state_of_advances is clear advances, lcgSteps_eq_self_of_dvd _ _ whole]

/-- R45, R57: going on by `backwardCount k` after `k` steps makes whole turns. -/
theorem two_pow_dvd_add_backwardCount {k : Nat} (inRange : k ≤ 4294967295) :
    2 ^ 32 ∣ k + (backwardCount k).toNat := by
  rw [backwardCount_toNat]
  omega

/-- Settles O23: the counts of the programs on both sides agree modulo 2^32. -/
theorem jumpLaws : Obligations.JumpLaws := by
  unfold Obligations.JumpLaws
  refine fun s clear => ⟨fun a b => ?_, fun d => ?_, fun k inRange => ⟨?_, ?_⟩⟩
  · exact execAll_state_congr clear (by simp) (by simp) (by simp [stepCount])
  · exact execAll_state_congr clear (by simp) (by simp) (by simp [stepCount])
  · exact execAll_state_of_whole clear (by simp [or_imp, forall_and])
      (by simpa [stepCount] using two_pow_dvd_add_backwardCount inRange)
  · exact execAll_state_of_whole clear (by simp)
      (by simpa [stepCount, Nat.mod_eq_of_lt (Nat.lt_succ_of_le inRange)]
        using two_pow_dvd_add_backwardCount inRange)

/-- R56: JUMP after LOAD starts from the pair that was loaded. -/
theorem execAll_load_jump_state {s : State} (clear : s.fault = false) (state inc delta : Word) :
    (execAll [.load state inc, .jump delta] s).map (·.state) =
      some (advance sourceParams state inc delta) := by
  rw [jumpLoopIsIteratedStep]
  have loaded : (((s.setState state).setInc inc).respond .ok).fault = false := clear
  simp only [execAll, exec_load clear, exec_jump loaded]
  rfl

/-- Settles O22: the next state is that of the iterated step, JUMP 0xFFFFFFFF after a STEP completes the period,
and the rule's two values run the loop. -/
theorem jumpSkipsSteps : Obligations.JumpSkipsSteps := by
  unfold Obligations.JumpSkipsSteps
  refine ⟨fun a b => decode_packCommand (.jump a) a b, fun s a clear => exec_jump clear a,
    fun s clear => ⟨?_, ?_, ?_, ?_, ?_⟩⟩
  · exact execAll_state_of_whole clear (by simp) (by simp [stepCount])
  · exact (exec_jump clear 1#32).trans (exec_step clear).symm
  · exact execAll_state_of_whole clear (by simp) (by simp [stepCount])
  · rw [execAll_load_jump_state clear]
    decide
  · rw [execAll_load_jump_state clear]
    decide

/-- R53: from `STATE = 0xFFFFFFFF`, which is -1, the advance subtracts the multiplier. -/
theorem lcgStep_allOnes (P : Params) (c : Word) : lcgStep P 0xFFFFFFFF#32 c = c - P.multiplier := by
  have minusOne : 0xFFFFFFFF#32 = -1#32 := by decide
  rw [lcgStep, minusOne, BitVec.mul_neg, BitVec.mul_one, neg_add_eq_sub]

/-- Settles O19: the frame is that of the register write, and the corner cases are those of one advance. -/
theorem stepAdvancesOnce : Obligations.StepAdvancesOnce := by
  unfold Obligations.StepAdvancesOnce
  refine ⟨decode_packCommand .step, fun s clear => exec_step clear, fun c => ⟨?_, ?_⟩, by decide⟩
  · simp [lcgStep]
  · exact lcgStep_allOnes sourceParams c

end Sys2Proof.Machine
end

section
/-! CLAIM. NEXT (R59 to R63, R68): the variable shift as a number, the next state in the spec's own literals, the
bijective output function, and the two fixed points. -/

namespace Sys2Proof.Machine

/-! ### The permutation (R59) -/

/-- R59: `STATE[31:28]` reaches the top of the word, so it is `STATE >> 28`. -/
theorem permShift_eq_ushiftRight (s : Word) : permShift sourceParams s = 4 + (s >>> 28).toNat := by
  have top : s.toNat / 2 ^ 28 % 2 ^ 4 = s.toNat / 2 ^ 28 := by omega
  simpa [permShift, sourceParams, Nat.shiftRight_eq_div_pow] using top

/-- R59: the permutation with the shift read off the top of the word. -/
theorem perm_eq_ushiftRight (s : Word) :
    perm sourceParams s = s ^^^ (277803737#32 * (s >>> (4 + (s >>> 28).toNat))) := by
  rw [perm, permShift_eq_ushiftRight, sourceParams]

/-- R59: the field has four bits, so the shift is never 0 and never 32 or more. -/
theorem permShift_bounds (s : Word) : 4 ≤ permShift sourceParams s ∧ permShift sourceParams s ≤ 19 := by
  have field : (s.extractLsb 31 28).toNat < 2 ^ 4 := BitVec.isLt _
  exact ⟨Nat.le_add_right 4 _, Nat.add_le_add_left (Nat.le_of_lt_succ field) 4⟩

/-- Settles O25: the next state is `exec_next`'s, with the permutation written in the rule's literals. -/
theorem nextPermutesOutputsAndAdvances : Obligations.NextPermutesOutputsAndAdvances := by
  unfold Obligations.NextPermutesOutputsAndAdvances
  refine ⟨decode_packCommand .next, fun s p clear permuted => ?_,
    fun s => ⟨rfl, permShift_bounds s⟩, fun _ => rfl⟩
  rw [← perm_eq_ushiftRight] at permuted
  subst permuted
  exact exec_next clear

/-- Settles O26: both commands end in one step with the same increment, and a step is injective. -/
theorem nextIsEntangled : Obligations.NextIsEntangled := by
  unfold Obligations.NextIsEntangled
  intro s t u clear ranNext ranStep
  rw [exec_next clear, Host.Outcome.next.injEq] at ranNext
  rw [exec_step clear, Host.Outcome.next.injEq] at ranStep
  subst ranNext ranStep
  exact (lcgStep_injective s.inc).eq_iff

/-! ### The output function (R60, R63) -/

/-- R63 (d): the output undoes itself, since two shifts by 22 clear a 32-bit word. -/
theorem outWord_involutive : Function.Involutive (outWord sourceParams) := by
  intro p
  have cleared : p >>> 22 >>> 22 = 0#32 := by
    rw [← BitVec.shiftRight_add]
    exact BitVec.ushiftRight_eq_zero (by decide)
  calc outWord sourceParams (outWord sourceParams p)
    _ = (p ^^^ p >>> 22) ^^^ (p ^^^ p >>> 22) >>> 22 := rfl
    _ = (p ^^^ p >>> 22) ^^^ p >>> 22 := by
      rw [BitVec.ushiftRight_xor_distrib, cleared, BitVec.xor_zero]
    _ = p := by rw [BitVec.xor_assoc, BitVec.xor_self, BitVec.xor_zero]

/-- Settles O27: an involution is a bijection. -/
theorem outputIsBijective : Obligations.OutputIsBijective :=
  outWord_involutive.bijective

/-! ### The fixed points (R63, R68) -/

/-- R49: the pair that one SEED leaves. -/
theorem execAll_seed_pair {s : State} (clear : s.fault = false) (a b : Word) :
    (execAll [.seed a b] s).map (fun t => (t.state, t.inc)) =
      some (seedState sourceParams a (seedIncrement b), seedIncrement b) := by
  simp [execAll, exec_seed clear]

/-- Settles O28: the collision, the fixed points and the rejections run the pure functions, and each seed leaves
the pair that its SEED computes. -/
theorem fixedPointsOfNext : Obligations.FixedPointsOfNext := by
  unfold Obligations.FixedPointsOfNext
  refine ⟨by decide, by decide, by decide, by decide, by decide, by decide, by decide, fun s clear => ⟨?_, ?_⟩⟩
  · rw [execAll_seed_pair clear]
    decide
  · rw [execAll_seed_pair clear]
    decide

end Sys2Proof.Machine
end

section
/-! CLAIM. One draw of BOUNDED as arithmetic (R64 to R67): the threshold is `2^32 mod bound`, the loop rejects exactly
the draws below it, the candidate is below the bound, and a power of two rejects nothing. -/

namespace Sys2Proof.Machine

/-! ### The threshold (R64) -/

theorem ne_zero_of_two_pow {b : Word} {k : Nat} (power : b.toNat = 2 ^ k) : b ≠ 0#32 := by
  rintro rfl
  exact absurd power (Nat.two_pow_pos k).ne

/-- R64: `-b` is `2^32 - b`, which is `2^32` modulo `b`. -/
theorem threshold_toNat {b : Word} (nonzero : b ≠ 0#32) : (threshold b).toNat = 2 ^ 32 % b.toNat := by
  have fits : 2 ^ 32 - b.toNat < 2 ^ 32 := Nat.sub_lt (by decide) (BitVec.toNat_pos_of_ne_zero nonzero)
  rw [threshold, BitVec.toNat_umod, BitVec.toNat_neg, Nat.mod_eq_of_lt fits,
    ← Nat.mod_eq_sub_mod (Nat.le_of_lt b.isLt)]

theorem threshold_lt {b : Word} (nonzero : b ≠ 0#32) : threshold b < b :=
  BitVec.umod_lt _ (BitVec.toNat_pos_of_ne_zero nonzero)

/-- A power of two that fits in a word divides `2^32`. -/
theorem threshold_of_two_pow {b : Word} {k : Nat} (power : b.toNat = 2 ^ k) : threshold b = 0#32 := by
  have small : k < 32 := (Nat.pow_lt_pow_iff_right (by decide)).mp (power ▸ b.isLt)
  apply BitVec.eq_of_toNat_eq
  rw [threshold_toNat (ne_zero_of_two_pow power), power]
  exact Nat.mod_eq_zero_of_dvd (pow_dvd_pow 2 small.le)

/-- A bound above `2^31` goes into `2^32` once. -/
theorem threshold_toNat_of_large {b : Word} (large : 2 ^ 31 < b.toNat) :
    (threshold b).toNat = 2 ^ 32 - b.toNat := by
  have nonzero : b ≠ 0#32 := by
    rintro rfl
    simp at large
  rw [threshold_toNat nonzero, Nat.mod_eq_sub_mod (Nat.le_of_lt b.isLt), Nat.mod_eq_of_lt (by omega)]

/-- Settles O29: the threshold as a number, and what that number is for a power of two and for a large bound. -/
theorem thresholdIsTwoPow32ModBound : Obligations.ThresholdIsTwoPow32ModBound := by
  unfold Obligations.ThresholdIsTwoPow32ModBound
  exact fun b nonzero => ⟨threshold_toNat nonzero, threshold_lt nonzero,
    fun ⟨_, power⟩ => threshold_of_two_pow power, threshold_toNat_of_large⟩

/-! ### Which draws are rejected (R65, R66) -/

/-- R66: a low half that the outer test lets through is not below the bound, hence not below the threshold. -/
theorem drawRejected_iff {b : Word} (nonzero : b ≠ 0#32) (x : Word) :
    drawRejected b x = true ↔ drawLow b x < threshold b := by
  unfold drawRejected
  split
  case isTrue => exact decide_eq_true_iff
  case isFalse atLeastBound =>
    exact iff_of_false Bool.false_ne_true fun below => atLeastBound (BitVec.lt_trans below (threshold_lt nonzero))

theorem drawRejected_iff_toNat {b : Word} (nonzero : b ≠ 0#32) (x : Word) :
    drawRejected b x = true ↔ b.toNat * x.toNat % 2 ^ 32 < 2 ^ 32 % b.toNat := by
  rw [drawRejected_iff nonzero, BitVec.lt_def, drawLow_toNat, threshold_toNat nonzero]

theorem drawRejected_eq_false_iff {b : Word} (nonzero : b ≠ 0#32) (x : Word) :
    drawRejected b x = false ↔ threshold b ≤ drawLow b x := by
  rw [← Bool.not_eq_true, drawRejected_iff nonzero, BitVec.not_lt]

theorem drawRejected_eq_false_iff_toNat {b : Word} (nonzero : b ≠ 0#32) (x : Word) :
    drawRejected b x = false ↔ 2 ^ 32 % b.toNat ≤ b.toNat * x.toNat % 2 ^ 32 := by
  rw [← Bool.not_eq_true, drawRejected_iff_toNat nonzero, Nat.not_lt]

/-- Settles O32, from the threshold being below the bound. -/
theorem singleTestRejectsTheSameDraws : Obligations.SingleTestRejectsTheSameDraws :=
  fun _ x nonzero => drawRejected_iff nonzero x

/-- R65: with the bound `2^32 - 1` the threshold is 1, and the low half is 0 for the draw 0 only. -/
theorem drawRejected_allOnes_iff (x : Word) : drawRejected 0xFFFFFFFF#32 x = true ↔ x = 0#32 := by
  have only : 4294967295 * x.toNat % 4294967296 < 1 ↔ x.toNat = 0 := by omega
  rw [drawRejected_iff_toNat (by decide), BitVec.toNat_eq]
  exact only

/-! ### The candidate (R65, R67) -/

theorem drawHigh_eq_ofNat (b x : Word) : drawHigh b x = BitVec.ofNat 32 (b.toNat * x.toNat / 2 ^ 32) := by
  rw [← drawHigh_toNat, BitVec.ofNat_toNat, BitVec.setWidth_eq]

/-- R67 (b): a draw is below `2^32`, so the high half of its product is below the bound. -/
theorem drawHigh_lt {b : Word} (nonzero : b ≠ 0#32) (x : Word) : drawHigh b x < b := by
  rw [BitVec.lt_def, drawHigh_toNat]
  apply Nat.div_lt_of_lt_mul
  rw [Nat.mul_comm (2 ^ 32)]
  exact Nat.mul_lt_mul_of_pos_left x.isLt (BitVec.toNat_pos_of_ne_zero nonzero)

/-- R65: `2^k * x / 2^32` is `x / 2^(32 - k)`. -/
theorem drawHigh_of_two_pow {b : Word} {k : Nat} (small : k ≤ 32) (power : b.toNat = 2 ^ k) (x : Word) :
    drawHigh b x = x >>> (32 - k) := by
  have split : 2 ^ 32 = 2 ^ k * 2 ^ (32 - k) := by rw [← pow_add, Nat.add_sub_of_le small]
  apply BitVec.eq_of_toNat_eq
  rw [drawHigh_toNat, power, split, BitVec.toNat_ushiftRight, Nat.shiftRight_eq_div_pow,
    Nat.mul_div_mul_left _ _ (Nat.two_pow_pos k)]

end Sys2Proof.Machine
end

section
/-! CLAIM. BOUNDED over one step (R65): the draw of the step that accepts it and of every step while it is in
progress. -/

namespace Sys2Proof.Machine

/-! ### The next state -/

theorem exec_bounded {s : State} (clear : s.fault = false) {b : Word} (nonzero : b ≠ 0#32) :
    exec (.bounded b) s = .next (s.drawPass b 0) :=
  (CommandEffect.firstDraw nonzero).exec_eq clear

/-- R95: of the offers, a step that accepts nothing takes a leading gap. -/
theorem holdOffer_eq (s : State) :
    s.holdOffer = { s with cmdIn := if s.cmdIn.head? = some none then s.cmdIn.tail else s.cmdIn } := by
  unfold State.holdOffer
  split
  case h_1 rest gap => simp [gap]
  case h_2 noGap =>
    have head : s.cmdIn.head? ≠ some none := fun h => (List.head?_eq_some_iff.mp h).elim noGap
    rw [if_neg head]

/-- R65: a draw whose low half reaches the threshold, as numbers. -/
theorem drawPass_of_threshold_le {s : State} {b : Word} (nonzero : b ≠ 0#32) (n : Nat)
    (reached : 2 ^ 32 % b.toNat ≤ b.toNat * (drawWord sourceParams s.state).toNat % 2 ^ 32) :
    s.drawPass b n =
      { s with
        state := nextTransition sourceParams s.state s.inc
        result := BitVec.ofNat 32 (b.toNat * (drawWord sourceParams s.state).toNat / 2 ^ 32)
        busy := false, draw := none
        rsp := some ⟨.ok, BitVec.ofNat 32 (b.toNat * (drawWord sourceParams s.state).toNat / 2 ^ 32)⟩ } := by
  rw [drawPass_of_taken ((drawRejected_eq_false_iff_toNat nonzero _).mpr reached), drawHigh_eq_ofNat]
  rfl

/-- R65: a draw whose low half is below the threshold, as numbers. -/
theorem drawPass_of_lt_threshold {s : State} {b : Word} (nonzero : b ≠ 0#32) (n : Nat)
    (below : b.toNat * (drawWord sourceParams s.state).toNat % 2 ^ 32 < 2 ^ 32 % b.toNat) :
    s.drawPass b n =
      { s with
        state := nextTransition sourceParams s.state s.inc
        busy := true, draw := some ⟨b, drawWord sourceParams s.state, n + 1⟩, rsp := none
        busyTick := s.busyTick + 1 } :=
  drawPass_of_rejected ((drawRejected_iff_toNat nonzero _).mpr below) n

/-- Settles O30: the two outcomes of the first draw, with the test and the candidate as numbers. -/
theorem boundedTakesTheFirstDraw : Obligations.BoundedTakesTheFirstDraw := by
  unfold Obligations.BoundedTakesTheFirstDraw
  refine ⟨fun a b => decode_packCommand (.bounded a) a b, ?_⟩
  rintro s b _ clear nonzero rfl
  rw [exec_bounded clear nonzero]
  exact ⟨fun reached => congrArg Host.Outcome.next (drawPass_of_threshold_le nonzero 0 reached),
    fun below => congrArg Host.Outcome.next (drawPass_of_lt_threshold nonzero 0 below)⟩

/-- Settles O31: the two outcomes of a later draw, which passes a level of `rst` and a gap in the offers. -/
theorem boundedDrawsAgainWhileBusy : Obligations.BoundedDrawsAgainWhileBusy := by
  unfold Obligations.BoundedDrawsAgainWhileBusy
  rintro s b _ x0 n low busy held nonzero rfl
  rw [(StepEffect.draw low busy held).step_eq, holdOffer_eq]
  exact ⟨fun reached => congrArg Host.Outcome.next (drawPass_of_threshold_le nonzero n reached),
    fun below => congrArg Host.Outcome.next (drawPass_of_lt_threshold nonzero n below)⟩

/-- R67 (b): a draw that completes its BOUNDED leaves a result below the bound. -/
theorem drawPass_result_lt {s : State} {b : Word} {n : Nat} (nonzero : b ≠ 0#32)
    (complete : (s.drawPass b n).busy = false) : (s.drawPass b n).result < b := by
  obtain ⟨-, held⟩ | ⟨-, taken⟩ := drawPass_cases s b n
  · simp [held] at complete
  · rw [taken]
    exact drawHigh_lt nonzero _

/-- Settles O34: both steps are a draw. -/
theorem boundedResultBelowBound : Obligations.BoundedResultBelowBound := by
  unfold Obligations.BoundedResultBelowBound
  refine ⟨fun s t b clear nonzero ran complete => ?_, fun s t regs low busy held nonzero ran complete => ?_⟩
  · rw [exec_bounded clear nonzero, Host.Outcome.next.injEq] at ran
    subst ran
    exact drawPass_result_lt nonzero complete
  · rw [(StepEffect.draw low busy held).step_eq, Host.Outcome.next.injEq] at ran
    subst ran
    exact drawPass_result_lt nonzero complete

/-- Settles O35: no draw is below the threshold 0, and the high half for a power of two is a shift. -/
theorem boundedByAPowerOfTwo : Obligations.BoundedByAPowerOfTwo := by
  unfold Obligations.BoundedByAPowerOfTwo
  refine ⟨fun s b k clear small power => ?_, drawRejected_allOnes_iff⟩
  have nonzero := ne_zero_of_two_pow power
  have taken : drawRejected b (drawWord sourceParams s.state) = false := by
    rw [drawRejected_eq_false_iff nonzero, threshold_of_two_pow power]
    exact BitVec.le_def.mpr (Nat.zero_le _)
  rw [exec_bounded clear nonzero, drawPass_of_taken taken, drawHigh_of_two_pow small.le power]
  rfl

end Sys2Proof.Machine
end

section
/-! CLAIM. BOUNDED over a run (R66 to R68): it accepts its first draw that is not rejected, and at a fixed point of
NEXT whose output is rejected it never responds. `TakesDraw` is what the accepting step and every later step of
one BOUNDED have in common, and a rejected draw keeps it. -/

namespace Sys2Proof.Machine

/-! ### The next step is a draw -/

/-- The next step is a draw of a BOUNDED by `b`: the one that accepts it, or one while it is in progress (R65). -/
structure TakesDraw (b : Word) (s : State) : Prop where
  rstLow : RstLow s
  clear : s.fault = false
  nonzero : b ≠ 0#32
  acceptsOrHolds : (∃ w, Accepts s w ∧ decode w = .command (.bounded b)) ∨
    s.busy = true ∧ ∃ x n, s.draw = some ⟨b, x, n⟩

/-- Either way the draw is taken from the generator of `s`. -/
theorem TakesDraw.exists_drawPass {s : State} {b : Word} (h : TakesDraw b s) :
    ∃ (u : State) (n : Nat), StepEffect s (u.drawPass b n) ∧
      u.state = s.state ∧ u.inc = s.inc ∧ u.fault = s.fault := by
  obtain ⟨w, accepts, decodes⟩ | ⟨busy, x, n, held⟩ := h.acceptsOrHolds
  · exact ⟨accepted s, 0, .command accepts h.clear decodes (.firstDraw h.nonzero), rfl, rfl, rfl⟩
  · exact ⟨s.passRst.holdOffer, n, .draw (regs := ⟨b, x, n⟩) (rstAsserted_of_rstLow h.rstLow) busy held,
      by simp, by simp, by simp⟩

/-- R65: a rejected draw advances the generator, shows nothing and leaves the next step a draw again. -/
theorem TakesDraw.step_of_rejected {s : State} {b : Word} (h : TakesDraw b s)
    (rejected : drawRejected b (drawWord sourceParams s.state) = true) :
    ∃ t, step s = .next t ∧ TakesDraw b t ∧ t.busy = true ∧ t.rsp = none ∧
      t.state = nextTransition sourceParams s.state s.inc ∧ t.inc = s.inc := by
  obtain ⟨u, n, effect, hstate, hinc, hfault⟩ := h.exists_drawPass
  have low := effect.rstLow h.rstLow
  rw [← hstate] at rejected
  rw [drawPass_of_rejected rejected, hstate, hinc] at effect low
  exact ⟨_, effect.step_eq, ⟨low, hfault.trans h.clear, h.nonzero, .inr ⟨rfl, _, _, rfl⟩⟩, rfl, rfl, rfl, hinc⟩

/-- R65: any other draw completes the command with the high half of its product. -/
theorem TakesDraw.step_of_taken {s : State} {b : Word} (h : TakesDraw b s)
    (taken : drawRejected b (drawWord sourceParams s.state) = false) :
    ∃ t, step s = .next t ∧ t.state = nextTransition sourceParams s.state s.inc ∧ t.inc = s.inc ∧
      t.result = drawHigh b (drawWord sourceParams s.state) ∧ t.busy = false ∧ t.fault = false ∧
      t.rsp = some ⟨.ok, t.result⟩ := by
  obtain ⟨u, n, effect, hstate, hinc, hfault⟩ := h.exists_drawPass
  rw [← hstate] at taken
  rw [drawPass_of_taken taken, hstate, hinc] at effect
  exact ⟨_, effect.step_eq, rfl, hinc, rfl, rfl, hfault.trans h.clear, rfl⟩

/-! ### The first draw that is not rejected -/

/-- R66, R67: the rejected draws before it only move the generator on. -/
theorem TakesDraw.accepts_first_taken {b : Word} (n : Nat) : ∀ {s : State}, TakesDraw b s →
    (∀ j < n, drawRejected b (drawWord sourceParams (nextTransitions sourceParams s.state s.inc j)) = true) →
    drawRejected b (drawWord sourceParams (nextTransitions sourceParams s.state s.inc n)) = false →
    ∃ t, StepsTo (n + 1) s t ∧ t.state = nextTransitions sourceParams s.state s.inc (n + 1) ∧ t.inc = s.inc ∧
      t.result = drawHigh b (drawWord sourceParams (nextTransitions sourceParams s.state s.inc n)) ∧
      t.busy = false ∧ t.fault = false ∧ responsesOf (n + 1) s = [⟨.ok, t.result⟩] := by
  induction n with
  | zero =>
    intro s h _ taken
    obtain ⟨t, first, hstate, hinc, hresult, ready, clear, answer⟩ := h.step_of_taken taken
    exact ⟨t, ⟨t, first, rfl⟩, hstate, hinc, hresult, ready, clear, by simp [responsesOf, first, answer]⟩
  | succ n ih =>
    intro s h rejected taken
    obtain ⟨u, first, again, -, silent, hstate, hinc⟩ := h.step_of_rejected (rejected 0 n.succ_pos)
    have later (j : Nat) : nextTransitions sourceParams s.state s.inc (j + 1) =
        nextTransitions sourceParams u.state u.inc j := by
      rw [nextTransitions_succ, hstate, hinc]
    rw [later] at taken
    obtain ⟨t, rest, hstate', hinc', hresult, ready, clear, shown⟩ :=
      ih again (fun j hj => later j ▸ rejected (j + 1) (Nat.succ_lt_succ hj)) taken
    refine ⟨t, ⟨u, first, rest⟩, hstate'.trans (later _).symm, hinc'.trans hinc, ?_, ready, clear, ?_⟩
    · rw [later, hresult]
    · simp [responsesOf_succ first, silent, shown]

/-! ### The hang -/

/-- R99: a run whose next step is a draw is not over. -/
theorem TakesDraw.unfinished {s : State} {b : Word} (h : TakesDraw b s) : s.finished = false := by
  obtain ⟨w, accepts, -⟩ | ⟨busy, -⟩ := h.acceptsOrHolds
  · simp [State.finished, accepts.pendingCommands_eq]
  · simp [State.finished, busy]

theorem observeFrom_succ_of_unfinished {s t : State} (unfinished : s.finished = false)
    (first : step s = .next t) (k : Nat) (shown : List Response) :
    observeFrom (k + 1) shown s = observeFrom k (shown ++ t.rsp.toList) t := by
  simp [observeFrom, unfinished, first]

/-- R68: the rejected draw of a fixed point comes back in every step. -/
theorem TakesDraw.hangs {b : Word} (k : Nat) : ∀ {s : State}, TakesDraw b s →
    nextTransition sourceParams s.state s.inc = s.state →
    drawRejected b (drawWord sourceParams s.state) = true →
    ∃ t, StepsTo (k + 1) s t ∧ t.busy = true ∧ t.state = s.state ∧ responsesOf (k + 1) s = [] ∧
      observeFrom (k + 1) [] s = none := by
  induction k with
  | zero =>
    intro s h fixed rejected
    obtain ⟨t, first, again, busy, silent, hstate, -⟩ := h.step_of_rejected rejected
    refine ⟨t, ⟨t, first, rfl⟩, busy, hstate.trans fixed, by simp [responsesOf, first, silent], ?_⟩
    rw [observeFrom_succ_of_unfinished h.unfinished first]
    simp [observeFrom, again.unfinished]
  | succ k ih =>
    intro s h fixed rejected
    obtain ⟨u, first, again, -, silent, hstate, hinc⟩ := h.step_of_rejected rejected
    have same : u.state = s.state := hstate.trans fixed
    obtain ⟨t, rest, busy, hstate', shown, unobserved⟩ := ih again (by rwa [same, hinc]) (by rwa [same])
    refine ⟨t, ⟨u, first, rest⟩, busy, hstate'.trans same, ?_, ?_⟩
    · simp [responsesOf_succ first, silent, shown]
    · rw [observeFrom_succ_of_unfinished h.unfinished first, silent]
      exact unobserved

/-! ### The statements -/

/-- Settles O33, by induction on the number of rejected draws. -/
theorem boundedAcceptsTheFirstGoodDraw : Obligations.BoundedAcceptsTheFirstGoodDraw := by
  unfold Obligations.BoundedAcceptsTheFirstGoodDraw
  intro s w b n accepts low clear decodes nonzero below reached
  have draws : TakesDraw b s := ⟨low, clear, nonzero, .inl ⟨w, accepts, decodes⟩⟩
  obtain ⟨t, run, hstate, hinc, hresult, ready, clear', shown⟩ := draws.accepts_first_taken n
    (fun j hj => (drawRejected_iff nonzero _).mpr (below j hj)) ((drawRejected_eq_false_iff nonzero _).mpr reached)
  exact ⟨t, run, hstate, hinc, hresult, hresult ▸ drawHigh_lt nonzero _, ready, clear', shown⟩

/-- Settles O36, by induction on the number of steps. -/
theorem boundedHangsAtARejectedFixedPoint : Obligations.BoundedHangsAtARejectedFixedPoint := by
  unfold Obligations.BoundedHangsAtARejectedFixedPoint
  intro s w b k accepts low clear decodes nonzero fixed rejected
  have draws : TakesDraw b s := ⟨low, clear, nonzero, .inl ⟨w, accepts, decodes⟩⟩
  obtain ⟨t, run, busy, hstate, silent, unobserved⟩ := draws.hangs k fixed rejected
  refine ⟨t, run, busy, hstate, ?_, silent, unobserved⟩
  simp [State.statusO, statusByte_fields, busy]

end Sys2Proof.Machine
end

section
/-! SUPPORT. One command issued by a host on an idle block without a fault (R38, R70, R74, R77): what a NEXT and a
BOUNDED give it. A BOUNDED is a `TakesDraw`, so the host waits on it for a value below the bound or in vain. -/

namespace Sys2Proof.Machine

/-! ### How an operation goes on -/

theorem HostResult.andThen_eq_done {α β : Type} {r : HostResult α} {k : α → State → HostResult β} {v : β}
    {t : State} (h : r.andThen k = .done v t) : ∃ a u, r = .done a u ∧ k a u = .done v t := by
  cases r with
  | done a u => exact ⟨a, u, rfl, h⟩
  | failed | waiting | refused | stopped => cases h

theorem awaitResponse_of_shown {s t : State} {r : Response} (first : step s = .next t) (shown : t.rsp = some r)
    (patience : Nat) :
    awaitResponse (patience + 1) s = if r.status = .ok then .done r.data t else .failed r.status t := by
  simp [awaitResponse, first, shown]

theorem awaitResponse_of_silent {s t : State} (first : step s = .next t) (silent : t.rsp = none)
    (patience : Nat) : awaitResponse (patience + 1) s = awaitResponse patience t := by
  simp [awaitResponse, first, silent]

/-! ### The command a host offers -/

/-- What `issue` makes of the inputs (R38): the command alone on the command port, and `rst` low. -/
def State.offerAlone (s : State) (i : Instr) : State :=
  { s with cmdIn := [some (encode i)], rstIn := [] }

theorem issue_eq_awaitResponse (patience : Nat) (i : Instr) (s : State) :
    issue patience i s = awaitResponse patience (s.offerAlone i) := rfl

section
variable {s : State} (ready : s.busy = false) (clear : s.fault = false)
include ready

theorem accepts_offerAlone (i : Instr) : Accepts (s.offerAlone i) (encode i) :=
  ⟨rfl, ready, rfl⟩

include clear

/-- The next step runs the command that is offered. -/
theorem step_offerAlone {i : Instr} {t : State} (effect : CommandEffect (accepted (s.offerAlone i)) i t) :
    step (s.offerAlone i) = .next t :=
  (StepEffect.command (accepts_offerAlone ready i) clear (decodeOfEncode i) effect).step_eq

/-- R61: a host that issues a NEXT has its raw word in one step, and the block is idle again. -/
theorem issue_next (patience : Nat) : ∃ t,
    issue (patience + 1) .next s = .done (drawWord sourceParams s.state) t ∧
      t.state = nextTransition sourceParams s.state s.inc ∧ t.inc = s.inc ∧ t.busy = false ∧ t.fault = false :=
  ⟨_, awaitResponse_of_shown (step_offerAlone ready clear (.write (by simp))) rfl patience, rfl, rfl, rfl, clear⟩

/-- R77, R79: a host that issues a BOUNDED by zero sees ERR_BOUND_ZERO. -/
theorem issue_bounded_zero (patience : Nat) : ∃ t,
    issue (patience + 1) (.bounded 0#32) s = .failed .errBoundZero t ∧ t.fault = true ∧ t.fcode = 1#2 :=
  ⟨_, awaitResponse_of_shown (step_offerAlone ready clear .zeroBound) rfl patience, rfl, rfl⟩

theorem takesDraw_offerAlone {b : Word} (nonzero : b ≠ 0#32) : TakesDraw b (s.offerAlone (.bounded b)) where
  rstLow := fun _ member => nomatch member
  clear := clear
  nonzero := nonzero
  acceptsOrHolds := .inl ⟨_, accepts_offerAlone ready _, decodeOfEncode _⟩

end

/-! ### Waiting for a BOUNDED -/

/-- R65, R67 (b): the host runs out of patience, or gets a value below the bound from a block that is idle again. -/
theorem TakesDraw.awaitResponse_cases {b : Word} (patience : Nat) : ∀ {s : State}, TakesDraw b s →
    (∃ t, awaitResponse patience s = .waiting t) ∨
    ∃ v t, awaitResponse patience s = .done v t ∧ v < b ∧ t.busy = false ∧ t.fault = false := by
  induction patience with
  | zero => exact fun {s} _ => .inl ⟨s, rfl⟩
  | succ patience ih =>
    intro s h
    cases rejected : drawRejected b (drawWord sourceParams s.state) with
    | true =>
      obtain ⟨t, first, again, -, silent, -, -⟩ := h.step_of_rejected rejected
      rw [awaitResponse_of_silent first silent]
      exact ih again
    | false =>
      obtain ⟨t, first, -, -, hresult, ready, clear, shown⟩ := h.step_of_taken rejected
      exact .inr ⟨t.result, t, awaitResponse_of_shown first shown patience, hresult ▸ drawHigh_lt h.nonzero _,
        ready, clear⟩

theorem issue_bounded_cases {s : State} (ready : s.busy = false) (clear : s.fault = false) {b : Word}
    (nonzero : b ≠ 0#32) (patience : Nat) :
    (∃ t, issue patience (.bounded b) s = .waiting t) ∨
    ∃ v t, issue patience (.bounded b) s = .done v t ∧ v < b ∧ t.busy = false ∧ t.fault = false :=
  (takesDraw_offerAlone ready clear nonzero).awaitResponse_cases patience

end Sys2Proof.Machine
end

section
/-! CLAIM. The host's compositions (R70 to R77): a shuffle, a pick, and the integers made of raw words. -/

namespace Sys2Proof.Machine

/-! ### Shuffling (R75) -/

theorem swapAt_perm {α : Type} (xs : List α) (i j : Nat) : (swapAt xs i j).Perm xs := by
  unfold swapAt
  split
  case h_1 x y hx hy =>
    obtain ⟨hi, rfl⟩ := List.getElem?_eq_some_iff.mp hx
    obtain ⟨hj, rfl⟩ := List.getElem?_eq_some_iff.mp hy
    exact List.set_set_perm hi hj
  case h_2 => exact .refl xs

/-- The loop only swaps. -/
theorem shuffleFrom_perm {α : Type} {patience remaining i : Nat} {xs ys : List α} {s t : State}
    (finished : shuffleFrom patience remaining i xs s = .done ys t) : ys.Perm xs := by
  fun_induction shuffleFrom patience remaining i xs s with
  | case1 | case2 =>
    cases finished
    exact .refl _
  | case3 remaining i xs s ih =>
    obtain ⟨offset, u, -, rest⟩ := HostResult.andThen_eq_done finished
    exact (ih offset u rest).trans (swapAt_perm xs i _)

/-- A bound of the loop fits in a word, so it is not zero there, and each BOUNDED leaves the block idle for the
next one. -/
theorem shuffleFrom_ne_failed {α : Type} {patience remaining i : Nat} {xs : List α} {s : State}
    (ready : s.busy = false) (clear : s.fault = false) (fits : remaining ≤ 4294967295) (status : RspStatus)
    (t : State) : shuffleFrom patience remaining i xs s ≠ .failed status t := by
  fun_induction shuffleFrom patience remaining i xs s with
  | case1 | case2 => exact nofun
  | case3 remaining i xs s ih =>
    have nonzero : BitVec.ofNat 32 (remaining + 2) ≠ 0#32 := by
      simp only [ne_eq, BitVec.toNat_eq, BitVec.toNat_ofNat]
      omega
    obtain ⟨u, waits⟩ | ⟨offset, u, answer, -, ready', clear'⟩ :=
      issue_bounded_cases ready clear nonzero patience
    · rw [waits]
      exact nofun
    · rw [answer]
      exact ih offset u ready' clear' (by omega)

/-- Settles O53, by induction over the loop: each pass swaps two elements and issues a BOUNDED that cannot fault. -/
theorem shufflePermutes : Obligations.ShufflePermutes := by
  unfold Obligations.ShufflePermutes
  refine ⟨fun α patience xs ys s t finished => ?_,
    fun α patience xs s ready clear => ⟨fun fits => ?_, fun long => ?_⟩⟩
  · unfold hostShuffle at finished
    split at finished
    case isTrue => cases finished
    case isFalse => exact shuffleFrom_perm finished
  · rw [hostShuffle, if_neg fits.not_gt]
    exact shuffleFrom_ne_failed ready clear fits
  · rw [hostShuffle, if_pos long]

/-! ### Picking (R73, R74, R77) -/

theorem clampLength_ne_zero {n : Nat} (positive : 0 < n) : clampLength n ≠ 0#32 := by
  rw [ne_eq, BitVec.toNat_eq, clampLength_toNat, BitVec.toNat_ofNat]
  omega

/-- An index is a value below the clamped length, and an empty sequence has none. -/
theorem hostPickIndex_lt {patience n : Nat} {s t : State} {index : Word} (ready : s.busy = false)
    (clear : s.fault = false) (picked : hostPickIndex patience n s = .done index t) :
    index < clampLength n := by
  unfold hostPickIndex at picked
  obtain rfl | positive := n.eq_zero_or_pos
  · cases patience with
    | zero => cases picked
    | succ patience =>
      obtain ⟨u, fails, -⟩ := issue_bounded_zero ready clear patience
      cases fails.symm.trans picked
  · obtain ⟨u, waits⟩ | ⟨v, u, answer, below, -⟩ :=
      issue_bounded_cases ready clear (clampLength_ne_zero positive) patience
    · cases waits.symm.trans picked
    · cases answer.symm.trans picked
      exact below

/-- Settles O52: the clamped length is the smaller of the length and `2^32 - 1`, and the bound of an empty sequence
is zero. -/
theorem pickedIndexIsInRange : Obligations.PickedIndexIsInRange := by
  unfold Obligations.PickedIndexIsInRange
  refine ⟨fun patience n s t index ready clear picked => ?_,
    fun patience s ready clear => issue_bounded_zero ready clear patience⟩
  have below := hostPickIndex_lt ready clear picked
  rw [BitVec.lt_def, clampLength_toNat] at below
  exact lt_min_iff.mp below

/-! ### Integers (R70, R71, R72) -/

/-- R70: bit 31 is the sign. -/
theorem boolOfRaw_eq_slt (raw : Word) : boolOfRaw raw = raw.slt 0#32 := by
  rw [BitVec.slt_zero_eq_msb, BitVec.msb_eq_getLsbD_last, boolOfRaw]

theorem u8OfRaw_eq_ofNat (raw : Word) : u8OfRaw raw = BitVec.ofNat 8 (raw.toNat / 2 ^ 24) := by
  rw [← Nat.shiftRight_eq_div_pow]
  rfl

theorem u16OfRaw_eq_ofNat (raw : Word) : u16OfRaw raw = BitVec.ofNat 16 (raw.toNat / 2 ^ 16) := by
  rw [← Nat.shiftRight_eq_div_pow]
  rfl

/-- R72: the second raw word is the high half. -/
theorem u64OfRaws_eq_ofNat (raw1 raw2 : Word) :
    u64OfRaws raw1 raw2 = BitVec.ofNat 64 (raw2.toNat * 2 ^ 32 + raw1.toNat) := by
  rw [← toNat_append_eq_add, BitVec.ofNat_toNat, BitVec.setWidth_eq, u64OfRaws]

/-- Settles O51: each operation is one NEXT or two, and what it makes of the raw words is their arithmetic. -/
theorem hostIntegersFromRawWords : Obligations.HostIntegersFromRawWords := by
  unfold Obligations.HostIntegersFromRawWords
  rintro s _ _ ready clear rfl rfl
  obtain ⟨t, answer, hstate, hinc, ready', clear'⟩ := issue_next ready clear 0
  obtain ⟨u, answer', hstate', -⟩ := issue_next ready' clear' 0
  rw [hstate, hinc] at hstate'
  rw [hstate] at answer'
  refine ⟨⟨t, ?_, hstate⟩, ⟨t, ?_, hstate⟩, ⟨t, ?_, hstate⟩, ⟨u, ?_, hstate'⟩⟩
  · rw [hostNextBool, answer, ← boolOfRaw_eq_slt]
    rfl
  · rw [hostNextU8, answer, ← u8OfRaw_eq_ofNat]
    rfl
  · rw [hostNextU16, answer, ← u16OfRaw_eq_ofNat]
    rfl
  · rw [hostNextU64, answer, ← u64OfRaws_eq_ofNat, HostResult.andThen, answer']
    rfl

end Sys2Proof.Machine
end

section
/-! CLAIM. Exceptions (R78 to R85, R91): what raises a fault and what the step that raises it changes, the one outcome
of an accepted word, the faulted block, which only reset brings back, and the idle block, which holds its state. -/

namespace Sys2Proof.Machine

/-! ### What raises a fault (R78, R79, R80) -/

/-- R40, R41: the words that decode to a BOUNDED. -/
theorem decode_eq_bounded_iff {w : CmdWord} {b : Word} :
    decode w = .command (.bounded b) ↔ (opField w).toNat = 0x06 ∧ aField w = b := by
  constructor
  · intro decodes
    obtain ⟨j, opcode, taken⟩ := exists_withOperands_of_decode decodes
    cases j with
    | bounded a =>
      rw [Instr.withOperands, Instr.bounded.injEq] at taken
      exact ⟨congrArg BitVec.toNat opcode.symm, taken.symm⟩
    | nop | seed | load | step | next | jump => cases taken
  · rintro ⟨opcode, rfl⟩
    exact decode_of_opcode (i := .bounded 0#32) (BitVec.eq_of_toNat_eq opcode.symm)

/-- R42: only the reserved opcodes are illegal. -/
theorem reserved_of_decode_illegal {w : CmdWord} {op : Opcode} (decodes : decode w = .illegal op) :
    0x07 ≤ (opField w).toNat := by
  by_contra small
  obtain ⟨i, isCommand⟩ := exists_decode_of_unreserved (not_le.mp small)
  simp [isCommand] at decodes

/-- R79, R80: the words that raise each code where `FAULT = 0`. -/
def Raises (w : CmdWord) : FaultCode → Prop
  | .boundZero => (opField w).toNat = 0x06 ∧ aField w = 0#32
  | .illegalOp => 0x07 ≤ (opField w).toNat

/-- Accepting such a word raises the fault. -/
theorem Raises.stepEffect {s : State} {w : CmdWord} {code : FaultCode} (raises : Raises w code)
    (accepts : Accepts s w) (clear : s.fault = false) : StepEffect s ((accepted s).raiseFault code) := by
  cases code with
  | boundZero => exact .command accepts clear (decode_eq_bounded_iff.mpr raises) .zeroBound
  | illegalOp => exact .illegal accepts clear (decode_of_reserved raises)

/-- R79: of the commands, only a BOUNDED by zero sets `FAULT`. -/
theorem CommandEffect.eq_raiseFault {s t : State} {i : Instr} (effect : CommandEffect s i t)
    (clear : s.fault = false) (faulted : t.fault = true) :
    i = .bounded 0#32 ∧ t = s.raiseFault .boundZero := by
  cases effect with
  | write => simp [clear] at faulted
  | zeroBound => exact ⟨rfl, rfl⟩
  | firstDraw => simp [clear] at faulted

/-- R78, R82: a step that sets `FAULT` accepts a word that raises a code, and is the raising of that code. -/
theorem StepEffect.exists_raises {s t : State} (effect : StepEffect s t) (clear : s.fault = false)
    (faulted : t.fault = true) :
    ∃ w code, Accepts s w ∧ Raises w code ∧ t = (accepted s).raiseFault code := by
  cases effect with
  | reset => simp at faulted
  | draw => simp [clear] at faulted
  | refuse _ faultedBefore => simp [clear] at faultedBefore
  | illegal accepts _ decodes =>
    exact ⟨_, .illegalOp, accepts, reserved_of_decode_illegal decodes, rfl⟩
  | command accepts _ decodes effect =>
    obtain ⟨rfl, raised⟩ := effect.eq_raiseFault (s := accepted s) clear faulted
    exact ⟨_, .boundZero, accepts, decode_eq_bounded_iff.mp decodes, raised⟩
  | idle => simp [clear] at faulted

/-- Settles O38: the step is `raiseFault` on the accepted state, which writes the flags and the response only. -/
theorem faultsArePrecise : Obligations.FaultsArePrecise := by
  unfold Obligations.FaultsArePrecise
  intro s t clear h faulted
  obtain ⟨w, code, accepts, raises, raised⟩ := (stepEffect_of_step h).exists_raises clear faulted
  refine ⟨w, code, accepts, ?_, raised⟩
  cases code with
  | boundZero =>
    obtain ⟨opcode, zero⟩ := raises
    exact .inr ⟨opcode, zero, rfl⟩
  | illegalOp => exact .inl ⟨raises, rfl⟩

/-- Settles O37: the zero bound is checked before any draw, and `FCODE` tells the two codes apart. -/
theorem onlyAZeroBoundRaisesBoundZero : Obligations.OnlyAZeroBoundRaisesBoundZero := by
  unfold Obligations.OnlyAZeroBoundRaisesBoundZero
  refine ⟨fun s clear => CommandEffect.zeroBound.exec_eq clear, fun s t clear h faulted isBoundZero => ?_⟩
  obtain ⟨w, code, accepts, raises, rfl⟩ := (stepEffect_of_step h).exists_raises clear faulted
  cases code with
  | boundZero => exact ⟨w, accepts, decode_eq_bounded_iff.mpr raises⟩
  | illegalOp => exact absurd isBoundZero (by simp [FaultCode.bits])

/-! ### The one outcome of a command (R82, R83) -/

/-- R83: a command that raises no fault responds OK, or is a BOUNDED left in progress. -/
theorem CommandEffect.ok_or_inProgress {s t : State} {i : Instr} (effect : CommandEffect s i t)
    (notZeroBound : i ≠ .bounded 0#32) :
    t.rsp = some ⟨.ok, t.result⟩ ∨ t.rsp = none ∧ t.busy = true ∧ ∃ b, i = .bounded b := by
  cases effect with
  | write => exact .inl rfl
  | zeroBound => exact absurd rfl notZeroBound
  | @firstDraw b =>
    obtain ⟨-, held⟩ | ⟨-, taken⟩ := drawPass_cases s b 0
    · exact .inr ⟨by simp [held], by simp [held], b, rfl⟩
    · exact .inl (by simp [taken])

/-- Settles O10: each check names the one step there is, and what passes all of them is a command without a fault. -/
theorem firstCheckWins : Obligations.FirstCheckWins := by
  unfold Obligations.FirstCheckWins
  intro s t w accepts h
  have effect := stepEffect_of_step h
  refine ⟨fun faulted => ?_, fun clear reserved => ?_, fun clear opcode zero => ?_,
    fun clear small notZeroBound => ?_⟩
  · obtain rfl := effect.unique (.refuse accepts faulted)
    rfl
  · obtain rfl := effect.unique (Raises.stepEffect (code := .illegalOp) reserved accepts clear)
    rfl
  · obtain rfl := effect.unique (Raises.stepEffect (code := .boundZero) ⟨opcode, zero⟩ accepts clear)
    rfl
  · obtain ⟨i, decodes⟩ := exists_decode_of_unreserved small
    obtain ⟨u, outcome⟩ := exists_commandEffect (accepted s) i
    obtain rfl := effect.unique (.command accepts clear decodes outcome)
    have passes : i ≠ .bounded 0#32 := by
      rintro rfl
      exact notZeroBound (decode_eq_bounded_iff.mp decodes)
    obtain ok | ⟨silent, busy, b, rfl⟩ := outcome.ok_or_inProgress passes
    · exact .inl ok
    · exact .inr ⟨silent, busy, (decode_eq_bounded_iff.mp decodes).1⟩

/-- Settles O9: the refusal comes before the word is decoded, and stands in every command. -/
theorem faultedBlockRefusesEveryCommand : Obligations.FaultedBlockRefusesEveryCommand := by
  unfold Obligations.FaultedBlockRefusesEveryCommand
  exact ⟨fun _ _ accepts faulted => (StepEffect.refuse accepts faulted).step_eq,
    fun _ i faulted => exec_of_faulted faulted i⟩

/-- Settles O11: a command is the refusal, or has an effect that answers or leaves a BOUNDED in progress. -/
theorem everyCommandHasANextState : Obligations.EveryCommandHasANextState := by
  unfold Obligations.EveryCommandHasANextState
  intro i s
  cases fault : s.fault with
  | true => exact ⟨_, exec_of_faulted fault i, .inr rfl⟩
  | false =>
    obtain ⟨t, effect⟩ := exists_commandEffect s i
    refine ⟨t, effect.exec_eq fault, ?_⟩
    have once := effect.answers_or_busy
    cases busy : t.busy with
    | true => exact .inl rfl
    | false => exact .inr (by simpa [busy] using once)

/-! ### Consistent states go on (R82) -/

/-- R24: a consistent state that is busy holds its BOUNDED, and so is not faulted. -/
theorem DrawConsistent.of_busy {s : State} (h : DrawConsistent s) (busy : s.busy = true) :
    s.draw.isSome ∧ s.fault = false := by
  cases held : s.draw with
  | none => simp [DrawConsistent, held, busy] at h
  | some regs => exact ⟨rfl, (h.held held).1⟩

/-- Settles O45: the model stops only where `BUSY = 1` and no BOUNDED is held. -/
theorem consistentStatesGoOn : Obligations.ConsistentStatesGoOn := by
  unfold Obligations.ConsistentStatesGoOn
  rintro s ⟨-, draw, -⟩
  obtain ⟨t, effect⟩ := exists_stepEffect fun busy => (draw.of_busy busy).1
  exact ⟨t, effect.step_eq⟩

/-! ### The faulted block (R81, R85) -/

/-- The registers and the flags of `t` are those of `s`: what a faulted block holds until it is reset. -/
structure SameRegisters (s t : State) : Prop where
  state : t.state = s.state
  inc : t.inc = s.inc
  result : t.result = s.result
  fault : t.fault = s.fault
  fcode : t.fcode = s.fcode
  busy : t.busy = s.busy

theorem SameRegisters.refl (s : State) : SameRegisters s s :=
  ⟨rfl, rfl, rfl, rfl, rfl, rfl⟩

theorem SameRegisters.trans {s t u : State} (first : SameRegisters s t) (second : SameRegisters t u) :
    SameRegisters s u where
  state := second.state.trans first.state
  inc := second.inc.trans first.inc
  result := second.result.trans first.result
  fault := second.fault.trans first.fault
  fcode := second.fcode.trans first.fcode
  busy := second.busy.trans first.busy

/-- R81: without reset, a step of a faulted block refuses a word or is idle. -/
theorem StepEffect.holds_of_faulted {s t : State} (effect : StepEffect s t) (low : s.rstAsserted = false)
    (faulted : s.fault = true) (ready : s.busy = false) :
    SameRegisters s t ∧ (t.rsp = none ∨ t.rsp = some ⟨.errFaulted, s.result⟩) := by
  cases effect with
  | reset asserted => simp [low] at asserted
  | draw _ busy => simp [ready] at busy
  | refuse => exact ⟨⟨rfl, rfl, rfl, rfl, rfl, ready.symm⟩, .inr rfl⟩
  | illegal _ clear => simp [faulted] at clear
  | command _ clear => simp [faulted] at clear
  | idle => exact ⟨by constructor <;> simp, .inl rfl⟩

/-- R85: a faulted block goes on for every number of steps without reset, holds its registers and refuses every
word. -/
theorem faulted_run (k : Nat) : ∀ {s : State}, s.fault = true → s.busy = false → RstLow s →
    (∃ t, StepsTo k s t ∧ SameRegisters s t) ∧
      ∀ r ∈ responsesOf k s, r = ⟨.errFaulted, s.result⟩ := by
  induction k with
  | zero =>
    intro s _ _ _
    exact ⟨⟨s, rfl, .refl s⟩, nofun⟩
  | succ k ih =>
    intro s faulted ready low
    obtain ⟨u, effect⟩ := exists_stepEffect (s := s) (by simp [ready])
    obtain ⟨same, shown⟩ := effect.holds_of_faulted (rstAsserted_of_rstLow low) faulted ready
    obtain ⟨⟨t, rest, same'⟩, refusals⟩ :=
      ih (same.fault.trans faulted) (same.busy.trans ready) (effect.rstLow low)
    refine ⟨⟨t, ⟨u, effect.step_eq, rest⟩, same.trans same'⟩, ?_⟩
    rw [responsesOf_succ effect.step_eq]
    rw [same.result] at refusals
    obtain silent | refusal := shown
    · simpa [silent] using refusals
    · simpa [refusal] using refusals

/-- Settles O39: a consistent faulted state is idle, so its run is `faulted_run`. -/
theorem faultIsStickyUntilReset : Obligations.FaultIsStickyUntilReset := by
  unfold Obligations.FaultIsStickyUntilReset
  rintro k s ⟨-, draw, -⟩ faulted low
  have ready : s.busy = false := by
    by_contra busy
    obtain ⟨-, clear⟩ := draw.of_busy (Bool.eq_true_of_not_eq_false busy)
    simp [clear] at faulted
  obtain ⟨⟨t, run, same⟩, refusals⟩ := faulted_run k faulted ready low
  exact ⟨t, run, same.fault.trans faulted, same.fcode, same.state, same.inc, same.result,
    same.busy.trans ready, refusals⟩

/-! ### The idle block (R91) -/

/-- A step to which nothing is offered moves the offers on by one. -/
theorem holdOffer_of_noOffer {s : State} (noOffer : s.offeredWord = none) : s.holdOffer = s.takeOffer := by
  cases offers : s.cmdIn with
  | nil => simp [holdOffer_eq, State.takeOffer, offers]
  | cons offer rest =>
    obtain rfl : offer = none := by simpa [State.offeredWord, offers] using noOffer
    simp [holdOffer_eq, State.takeOffer, offers]

theorem step_of_idle {s : State} (ready : s.busy = false) (noOffer : s.offeredWord = none)
    (low : s.rstAsserted = false) :
    step s = .next { s with rstIn := s.rstIn.tail, cmdIn := s.cmdIn.tail, rsp := none } := by
  rw [(StepEffect.idle low ready noOffer).step_eq, holdOffer_of_noOffer (s := s.passRst) noOffer]
  rfl

/-- The head of a list whose first elements are all `d`. -/
theorem headD_eq_of_take {α : Type} {l : List α} {d : α} {k : Nat} (first : ∀ x ∈ l.take (k + 1), x = d) :
    l.headD d = d := by
  cases l with
  | nil => rfl
  | cons x rest => exact first x (by simp)

/-- The first elements of the tail are among the first elements of the list. -/
theorem forall_mem_take_tail {α : Type} {l : List α} {d : α} {k : Nat}
    (first : ∀ x ∈ l.take (k + 1), x = d) : ∀ x ∈ l.tail.take k, x = d :=
  fun x h => first x (List.mem_of_mem_tail (List.tail_take_eq_take_tail l (k + 1) ▸ h))

/-- Settles O14: one idle step, and induction on the number of them. -/
theorem idleHoldsItsState : Obligations.IdleHoldsItsState := by
  unfold Obligations.IdleHoldsItsState
  refine ⟨fun _ ready noOffer low => step_of_idle ready noOffer low, fun k => ?_⟩
  induction k with
  | zero =>
    intro s ready gaps levels
    have first := step_of_idle ready (headD_eq_of_take gaps) (headD_eq_of_take levels)
    exact ⟨_, first, by simp [StepsTo]⟩
  | succ k ih =>
    intro s ready gaps levels
    have first := step_of_idle ready (headD_eq_of_take gaps) (headD_eq_of_take levels)
    have rest := ih { s with rstIn := s.rstIn.tail, cmdIn := s.cmdIn.tail, rsp := none } ready
      (forall_mem_take_tail gaps) (forall_mem_take_tail levels)
    simp only [List.drop_tail] at rest
    exact ⟨_, first, rest⟩

end Sys2Proof.Machine
end

section
/-! CLAIM. Reset (R85, R92, R93): its next state from every state, that nothing else clears `FAULT`, and that the pair it
leaves is the one of `seed 0, 0`. -/

namespace Sys2Proof.Machine

/-- R92, R93: the next state of a step with `rst` asserted. -/
theorem step_of_rstAsserted {s : State} (asserted : s.rstAsserted = true) :
    step s = .next s.passRst.holdOffer.applyReset :=
  (StepEffect.reset asserted).step_eq

/-- R85: a step without reset does not clear `FAULT`. -/
theorem StepEffect.fault_of_low {s t : State} (effect : StepEffect s t) (low : s.rstAsserted = false)
    (faulted : s.fault = true) : t.fault = true := by
  cases effect with
  | reset asserted => simp [low] at asserted
  | draw => simp [faulted]
  | refuse => exact faulted
  | illegal _ clear => simp [faulted] at clear
  | command _ clear => simp [faulted] at clear
  | idle => simp [faulted]

/-- Settles O41: reset overrides whatever is in progress, every other step keeps `FAULT = 1`, and SEED computes the
reset pair from zeros. -/
theorem resetFromEveryState : Obligations.ResetFromEveryState := by
  unfold Obligations.ResetFromEveryState
  refine ⟨fun s asserted => ?_, fun s t faulted h cleared => ?_, fun s t asserted h u clear => ?_⟩
  · rw [step_of_rstAsserted asserted, holdOffer_eq]
    rfl
  · by_contra notAsserted
    have kept := (stepEffect_of_step h).fault_of_low (Bool.eq_false_of_not_eq_true notAsserted) faulted
    simp [cleared] at kept
  · have seedPair : (seedState sourceParams 0#32 (seedIncrement 0#32), seedIncrement 0#32) =
        (0xF13283AE#32, 0x00000001#32) := by decide
    rw [step_of_rstAsserted asserted, Host.Outcome.next.injEq] at h
    rw [execAll_seed_pair clear, seedPair, ← h]
    rfl

end Sys2Proof.Machine
end
